-- ==== Sys2Proof/Word.lean ====
section
/-! DEFINITION. The plain words of the part: bytes and half words, the two hoses, pairs kept once per
hose, the four bands, and the unit of the elapsed-time count. -/

namespace Sys2Proof

/-- A byte of a line (spec 12, opening). -/
abbrev Byte := BitVec 8

/-- A 16-bit word of the configuration memory, or a check value. -/
abbrev Half := BitVec 16

/-- The two hoses. -/
inductive Hose where
  | a
  | b
  deriving DecidableEq, Repr

/-- The hose that is not `h`. -/
def Hose.other : Hose → Hose
  | .a => .b
  | .b => .a

/-- State that the part holds once per hose. -/
structure Two (α : Type) where
  a : α
  b : α
  deriving DecidableEq, Repr

/-- The hose's value. -/
def Two.get {α : Type} (t : Two α) : Hose → α
  | .a => t.a
  | .b => t.b

/-- Replace the hose's value. -/
def Two.set {α : Type} (t : Two α) (h : Hose) (x : α) : Two α :=
  match h with
  | .a => { t with a := x }
  | .b => { t with b := x }

/-- The same value for both hoses. -/
def Two.both {α : Type} (x : α) : Two α := ⟨x, x⟩

/-- One value for each of the bands 1 to 4 of a meter. -/
structure Quad (α : Type) where
  b1 : α
  b2 : α
  b3 : α
  b4 : α
  deriving DecidableEq, Repr

/-- The value of a band, 1 to 4 (any other number reads band 4). -/
def Quad.get {α : Type} (q : Quad α) (band : Nat) : α :=
  if band = 1 then q.b1 else if band = 2 then q.b2 else if band = 3 then q.b3 else q.b4

/-- Replace the value of a band, 1 to 4 (any other number names band 4). -/
def Quad.set {α : Type} (q : Quad α) (band : Nat) (x : α) : Quad α :=
  if band = 1 then { q with b1 := x } else if band = 2 then { q with b2 := x }
  else if band = 3 then { q with b3 := x } else { q with b4 := x }

/-- The four values in band order. -/
def Quad.toList {α : Type} (q : Quad α) : List α := [q.b1, q.b2, q.b3, q.b4]

/-- The same value for every band. -/
def Quad.all {α : Type} (x : α) : Quad α := ⟨x, x, x, x⟩

/-- `n` milliseconds in the unit of the elapsed-time count, 1/192,000 s: the largest unit in which a
millisecond and a bit-time at 9,600, 19,200 and 38,400 bit/s (R1) are all whole (log 1). -/
def ms (n : Nat) : Nat := n * 192

/-- `n` seconds in the unit of the elapsed-time count. -/
def sec (n : Nat) : Nat := n * 192000

/-- A counter that stops at its largest value (R13 and the other counters of the diagnostic page). -/
def satInc (top n : Nat) : Nat := if n < top then n + 1 else n

/-- The largest value of a 16-bit counter. -/
def max16 : Nat := 65535

/-- The largest value of a 32-bit count: the site clock (R24) and the sequence counter (R140). -/
def max32 : Nat := 4294967295

/-- A total in µL that stops at 2^48 − 1 (R101). -/
def satAdd48 (a b : Nat) : Nat := if a + b < 281474976710656 then a + b else 281474976710655

end Sys2Proof
end

