-- ==== Sys2Proof/Syntax.lean ====
section
/-! DEFINITION. The commands: one constructor for every row of spec/opcode_table.json, with the operands
that the command brings from its line. -/

namespace Sys2Proof

/-- A word pair of the configuration memory (R197). -/
structure ConfigPair where
  first : Half
  value : Half
  deriving DecidableEq, Repr

/-- The areas of the store (section 11.3). -/
inductive AreaName where
  | ringPosition (n : Nat)
  | journalHeader
  | factorArea (h : Hose)
  | priceBanks
  | stockArea
  | clockArea
  deriving DecidableEq, Repr

/-- The two header bytes of a link frame, less the kind (R212): the begin and end fragment flags, the
spare bits and the source station id. -/
structure Header where
  beginFlag : Bool
  endFlag : Bool
  spare0 : BitVec 2
  spare1 : BitVec 2
  source : BitVec 6
  deriving DecidableEq, Repr

/-- The eight bytes of a draw on a line or a tag (R212): bit 7 sure, bit 6, bowser id, time, volume. -/
structure WireDraw where
  sure : Bool
  bit6 : Bool
  bowser : BitVec 6
  time : BitVec 32
  volume : BitVec 24
  deriving DecidableEq, Repr

/-- The body of a STATUS frame (R212). -/
structure StatusBody where
  startNumber : BitVec 16
  stock : BitVec 24
  cover : BitVec 16
  claimFlag : Byte
  position : Byte
  uncollected : BitVec 16
  highestClosed : BitVec 32
  deriving DecidableEq, Repr

/-- One entry place of a PRICE entry fragment (R212). -/
structure PriceEntry where
  low : BitVec 16
  high : BitVec 16
  price : BitVec 24
  deriving DecidableEq, Repr

/-- The fields of a PRICE body after the fragment index (R212). -/
inductive PriceBody where
  | begins (book : BitVec 16) (effective : BitVec 32) (count : Byte)
  | entries (first second : PriceEntry)
  | ends (crc : Half)
  deriving DecidableEq, Repr

/-- What the reader head answers (R29); a DONE to a read brings the fragment's bytes, any other none. -/
inductive HeadResult where
  | done (bytes : List Byte)
  | absent
  | otherTag
  deriving DecidableEq, Repr

/-- What the temperature input gives at a window end (R95). -/
inductive TempSample where
  | fault
  | reading (tenths : Int)
  deriving DecidableEq, Repr

/-- Which display records PP sends (R210): one that has changed, or all at the refresh. -/
inductive DisplayTarget where
  | hoseRecord (h : Hose)
  | siteLine
  | diagnosticPage
  | refresh
  deriving DecidableEq, Repr

/-- The body of a link frame of one of the nine kinds (R212). -/
inductive FrameBody where
  | hello (startNumber : BitVec 16) (product : Byte)
  | status (body : StatusBody)
  | draw (machine : BitVec 24) (d : WireDraw)
  | query (machine : BitVec 24) (window : Byte)
  | answer (machine : BitVec 24) (draws : List WireDraw)
  | record (number : BitVec 32) (index : Byte) (chunk : List Byte)
  | mark (target : Byte) (number : BitVec 32) (time : BitVec 32)
  | price (index : Byte) (body : PriceBody)
  | delivery (target : Byte) (number : BitVec 16) (volume : BitVec 24) (time : BitVec 32)
  deriving DecidableEq, Repr

/-- What a message from the panel carries, by its type and key code (R214). -/
inductive PanelIn where
  | digit (d : Nat)
  | hoseKey (h : Hose)
  | enter
  | clear
  | stop
  | prove
  | ack
  | adopt
  | inspect
  | keyPresented (operator : BitVec 32)
  | keyRemoved
  | panelStatus (page : Byte)
  deriving DecidableEq, Repr

/-- The commands, in the order of the opcode table. The level of a `gaugeReading` is never below 0 mm: such a reading is
brought as any other invalid one (log 60). -/
inductive Instr where
  | supplyUp (memory : Option (List ConfigPair)) (failing : List AreaName)
  | startupRelease (outA outB carrier : Bool)
  | powerFailWarning
  | idleGap
  | backoffSlot
  | carrierSenseActive
  | transmissionEnd
  | recordSpacingIdleTotal
  | badFrame (line : List Byte)
  | hello (hd : Header) (startNumber : BitVec 16) (product : Byte)
  | status (hd : Header) (body : StatusBody)
  | draw (hd : Header) (machine : BitVec 24) (d : WireDraw)
  | query (hd : Header) (machine : BitVec 24) (window : Byte)
  | answer (hd : Header) (machine : BitVec 24) (draws : List WireDraw)
  | record (hd : Header) (number : BitVec 32) (index : Byte) (chunk : List Byte)
  | mark (hd : Header) (target : Byte) (number : BitVec 32) (time : BitVec 32)
  | price (hd : Header) (index : Byte) (body : PriceBody)
  | delivery (hd : Header) (target : Byte) (number : BitVec 16) (volume : BitVec 24) (time : BitVec 32)
  | listenTime
  | settleTime
  | isolationTime
  | statusPeriod
  | reassemblyTimeLimit
  | siteClockCount
  | clockHoldEnd
  | clockStoringPeriod
  | claimsListEntryExpiry (station : Nat)
  | headAnswer (h : Hose) (checkOk : Bool) (number : Byte) (result : HeadResult)
  | headCommandTimeout (h : Hose)
  | keyPresented (num : Byte) (operator : BitVec 32)
  | keyRemoved (num : Byte)
  | digit (num : Byte) (d : Nat)
  | hoseKey (num : Byte) (h : Hose)
  | enter (num : Byte)
  | clear (num : Byte)
  | stop (num : Byte)
  | prove (num : Byte)
  | ack (num : Byte)
  | adopt (num : Byte)
  | inspect (num : Byte)
  | panelStatus (num : Byte) (page : Byte)
  | panelBad (message : List Byte)
  | panelAbsent
  | displayRecordSend (target : DisplayTarget)
  | promptExpiry
  | pulse (h : Hose) (levelB : Bool)
  | flowWindowEnd (h : Hose) (sample : TempSample)
  | nozzleLift (h : Hose)
  | nozzleHang (h : Hose)
  | readRequestSecond (h : Hose)
  | tagReadTimeLimit (h : Hose)
  | keyWaitTimeLimit (h : Hose)
  | querySendLimit (h : Hose)
  | queryAnswerTime (h : Hose)
  | noFlowTimer (h : Hose)
  | idleTimer (h : Hose)
  | probeSecond (h : Hose)
  | drainEnd (h : Hose)
  | drainTimeLimit (h : Hose)
  | runOnTimer
  | budgetFall
  | proveSelectTime
  | proveSizeTime
  | proveReadingTime
  | inspectPageTimeout
  | offerRetryWait
  | reofferDue (number : Nat)
  | storeWriteEnd (good : Bool)
  | gaugeReading (fault : Bool) (level : Nat) (temperature : Int)
  | gaugeTimeout
  | checkRetryWait
  | hourEnd
  | channelBEdge (h : Hose) (rising : Bool)
  | carrierSenseInactive (unjudged : List Byte)
  | supplyFailure
  deriving DecidableEq, Repr

end Sys2Proof
end

