-- ==== Sys2Proof/Decode.lean ====
section
/-! DEFINITION. The commands that a word spells by the table's bits. The table gives none of its 75 rows
any bits ("fields": [] throughout), so no word spells a command. -/

namespace Sys2Proof

/-- The command that a word spells by the table's bits: none for every word. -/
def decodeTableWord (_nbits _w : Nat) : Option Instr := none

end Sys2Proof
end

