-- ==== Sys2Proof/Config.lean ====
section
/-! DEFINITION. The free values of the model: constants with no body, for what the spec leaves to chance
or does not state. No proof can see a value of one. -/

namespace Sys2Proof

/-- The start number LC draws at the n-th draw (R17: uniformly from 0 to 65,535). Free value, log 5. -/
opaque Config.startNumberDraw : Nat → BitVec 16

/-- The n-th number drawn for a backoff count (R4), before it is brought into the range of the frame's
class. Free value, log 6. -/
opaque Config.backoffDraw : Nat → Nat

/-- What the 48-bit book holds after a change that carries it outside the signed 48-bit range (R179 says
only that it is not clamped). Free value, log 7. -/
opaque Config.bookBeyondRange : Int → BitVec 48

/-- Whether the store write under way when the supply fails ends GOOD on the hold-up, or else is cut off or ends
FAILED (R202, R206), at the n-th value drawn. Free value, log 54. -/
opaque Config.writeEndsGood : Nat → Bool

/-- The text PP composes of a record's items: a number for each place of its lines, brought into the printable
range (R214 gives the items and the lengths, and no wording). Free value, log 53. -/
opaque Config.panelText {α : Type} : α → Nat → Nat

/-- Which page numbers have a diagnostic page (R214 speaks of a page number with no page and numbers none).
Free value, log 53. -/
opaque Config.pageExists : BitVec 8 → Bool

end Sys2Proof
end

