-- ==== Sys2Proof/Machine/State.lean ====
section
/-! DEFINITION. The state of the part as plain data, block by block, the reasons a step can stop, and the
state after reset. Elapsed times are in the unit of `ms` (1/192,000 s). -/

namespace Sys2Proof.Machine

/-! ### Configuration (chapter 11.2) -/

/-- The parameters of blocks 2 and 3, one set per hose (R198). -/
structure HoseParams where
  /-- pulse weight in µL (R85) -/
  pulseWeight : Nat
  /-- flow window length N, × 100 ms -/
  windowN : Nat
  /-- configured band upper limits, tenths of L/min -/
  limits : Quad Nat
  /-- configured band factors, units of 1/100,000 -/
  factors : Quad Nat
  /-- expansion coefficient, ppm per °C -/
  alpha : Nat
  /-- slow-down volume, cL -/
  slowDown : Nat
  deriving DecidableEq, Repr

/-- Every parameter of the table of R198. -/
structure Params where
  station : Option Nat
  product : Nat
  /-- 0: 9,600; 1: 19,200; 2: 38,400 bit/s -/
  bitRate : Nat
  /-- the answer time of a query, seconds -/
  queryWait : Nat
  hose : Two HoseParams
  /-- L -/
  tankCapacity : Nat
  /-- L -/
  heel : Nat
  reservePercent : Nat
  reorderPercent : Nat
  /-- tenths of an hour -/
  reorderCover : Nat
  tankAlpha : Nat
  /-- strapping points 1 to 24 as given: level mm and volume L, each absent until accepted -/
  strapPoints : List (Option Nat × Option Nat)
  /-- L -/
  maxDispense : Nat
  /-- L -/
  blindCap : Nat
  /-- supervisors 1 to 8: high word and low word -/
  supervisors : List (Nat × Nat)
  deriving DecidableEq, Repr

/-- What CFL holds: the parameters and how the download went (R197, R199). -/
structure Cfg where
  params : Params
  pairsRead : Nat
  rejected : Nat
  firstRejected : Option (Nat × Nat)
  incomplete : Bool
  configured : Bool
  notRead : Bool
  deriving DecidableEq, Repr

/-! ### Draws, tags and keys (chapters 2 and 3) -/

/-- One fuelling of one machine (section 3.2). -/
structure Draw where
  bowser : Nat
  time : Nat
  sure : Bool
  volume : Nat
  deriving DecidableEq, Repr

/-- The fixed part of a tag as read (R27, R214); `cls` is the two-bit class code, 1 A, 2 B, 3 C. -/
structure FixedPart where
  format : Nat
  machine : Nat
  cls : Nat
  keyRequired : Bool
  costCentre : Nat
  product : Nat
  /-- L -/
  capacity : Nat
  /-- L -/
  allowance : Nat
  /-- h -/
  window : Nat
  deriving DecidableEq, Repr

/-- The history of a tag (R28): its machine id, id check byte and generation, and its entries in use. -/
structure History where
  valid : Bool
  machine : Nat
  idCheck : Nat
  generation : Nat
  entries : List Draw
  deriving DecidableEq, Repr

/-- The last tag record read (R32). -/
structure TagRecord where
  fixed : FixedPart
  history : History
  deriving DecidableEq, Repr

/-- The causes of a TAG_ERROR (R36). -/
inductive TagError where
  | noTag
  | checkFail
  | changed
  | timeout
  deriving DecidableEq, Repr

/-- The completion codes (R36). -/
inductive Completion where
  | readDone
  | writeDone
  | probeDone
  | tagError (e : TagError)
  deriving DecidableEq, Repr

/-- The operation of a command to the reader head (R29). -/
inductive HeadOp where
  | readFragment (index : Nat)
  | writeFragment (index : Nat) (machine : Nat) (bytes : List Byte)
  | testPresence
  deriving DecidableEq, Repr

/-- The command still waiting for its answer (R29). -/
structure HeadCommand where
  number : Nat
  op : HeadOp
  beginMark : Bool
  endMark : Bool
  sentAt : Nat
  deriving DecidableEq, Repr

/-- The transaction state of a TIU with what it has kept so far (R31 to R35). -/
inductive TagBusy where
  | idle
  | read0
  | read1 (fixed : FixedPart)
  | read2 (fixed : FixedPart) (fragment1 : List Byte)
  | write1 (machine : Nat) (history : History)
  | write2 (machine : Nat) (history : History)
  | probing
  deriving DecidableEq, Repr

/-- The block whose transaction is in progress (R30); AU with the session that asked (R66). -/
inductive TagRequester where
  | au (session : Nat)
  | hc
  deriving DecidableEq, Repr

/-- The state of a Tag Interface Unit (section 2.3). -/
structure Tiu where
  busy : TagBusy
  requester : Option TagRequester
  waiting : Option HeadCommand
  /-- the last command number sent, 0 before the first -/
  number : Nat
  code : Option Completion
  record : Option TagRecord
  present : Bool
  misses : Nat
  headErrors : Nat
  deriving DecidableEq, Repr

/-- An entry in use of the Machine Table (R42). -/
structure Entry where
  machine : Nat
  fixed : Option FixedPart
  draws : List Draw
  fresh : Option Nat
  lastUse : Nat
  busy : Option Hose
  deriving DecidableEq, Repr

/-- A hose's query wait (R57); `id` is the number of the QUERY that belongs to it (R59). -/
inductive QueryWait where
  | none
  | sending (machine : Nat) (id : Nat) (since : Nat)
  | waiting (machine : Nat) (id : Nat) (since : Nat)
  deriving DecidableEq, Repr

/-- The Machine Table; its entries are kept by rising machine id. -/
structure Mt where
  entries : List Entry
  evictions : Nat
  wait : Two QueryWait
  /-- how many QUERY frames have been asked for, so that each has a number of its own -/
  serial : Nat
  deriving DecidableEq, Repr

/-! ### Authorisation (chapter 4) -/

/-- The names of the limit terms (R75). -/
inductive Binding where
  | preset
  | maximum
  | capacity
  | allowance
  | stock
  | blind
  deriving DecidableEq, Repr

/-- The refusal reasons (R78). -/
inductive RefusalReason where
  | tagUnreadable
  | tagInvalid
  | notConfigured
  | storeFault
  | wrongProduct
  | machineBusy
  | keyRequired
  | journalFull
  | classRestricted
  | noAllowance
  | noStock
  deriving DecidableEq, Repr

/-- MT's answer to an identification (R49). -/
inductive Ident where
  | held
  | otherHose
  deriving DecidableEq, Repr

/-- The terms at grant, in cL (R64, R75). -/
structure Terms where
  maximum : Nat
  capacity : Nat
  allowance : Nat
  stock : Nat
  blind : Option Nat
  deriving DecidableEq, Repr

/-- What MT hands AU for an entry (R56): the remaining allowance and the bucket level in cL, and how many draws
were replayed. -/
structure AllowanceAnswer where
  remaining : Nat
  level : Nat
  replayed : Nat
  deriving DecidableEq, Repr

/-- An authorisation session (R64). Its state is the hose state's (section 4.1), its limit the HC's. -/
structure Session where
  startAt : Option Nat
  /-- when the next whole second after the start falls (R65) -/
  nextRead : Option Nat
  /-- the entry to AWAIT_KEY (R70) -/
  keyWaitFrom : Option Nat
  fixed : Option FixedPart
  ident : Option Ident
  fresh : Bool
  blind : Bool
  terms : Option Terms
  presetTerm : Option Nat
  /-- how many sessions the hose has had, so that a late READ is told from a present one (R66) -/
  serial : Nat
  deriving DecidableEq, Repr

/-- The Authorisation Unit. -/
structure Au where
  session : Two Session
  preset : Two (Option Nat)
  /-- the preset entry: digits in the order keyed (R80) -/
  digits : List Nat
  deriving DecidableEq, Repr

/-! ### Metering (chapter 5) -/

/-- The state of an open dispense (R87). -/
structure MuDispense where
  isProve : Bool
  factors : Quad Nat
  band : Nat
  /-- temperature in use, tenths of a degree -/
  theta : Int
  held : Bool
  grossCarry : Nat
  stdCarry : Nat
  /-- µL -/
  gross : Nat
  /-- µL -/
  std : Nat
  pulses : Quad Nat
  mismatches : Nat
  reverses : Nat
  overspeed : Nat
  consecutive : Nat
  forcedSlow : Bool
  faultReported : Bool
  deriving DecidableEq, Repr

/-- A Meter Unit (R86 to R95). -/
structure Mu where
  table : Quad Nat
  /-- band upper limits in force (R85) -/
  limits : Quad Nat
  limitsDefaulted : Bool
  dispense : Option MuDispense
  rises : Nat
  falls : Nat
  edgeSeen : Bool
  windowCount : Nat
  windowEnd : Nat
  lastRate : Nat
  lastTemp : Option Int
  sampleBad : Bool
  stray : Nat
  reverse : Nat
  mismatch : Nat
  openRefused : Bool
  closeRefused : Bool
  deriving DecidableEq, Repr

/-- The close summary (R102). -/
structure Summary where
  /-- cL -/
  gross : Nat
  /-- cL -/
  std : Nat
  theta : Int
  held : Bool
  overspeed : Nat
  pulses : Quad Nat
  deriving DecidableEq, Repr

/-! ### Hoses and pump (chapter 6) -/

/-- The hose states (section 6.1). -/
inductive HoseState where
  | idle
  | identifying
  | awaitKey
  | querying
  | authorised
  | flowing
  | stopping
  | writing
  | hangWait
  | proving
  deriving DecidableEq, Repr

/-- The valve stage (R105): CLOSED drives neither output, SLOW the slow stage, FULL both. -/
inductive Stage where
  | closed
  | full
  | slow
  deriving DecidableEq, Repr

/-- The two valve outputs of a hose, active or not (R105). -/
structure Valves where
  slow : Bool
  full : Bool
  deriving DecidableEq, Repr

/-- The end causes (R113, R141). -/
inductive EndCause where
  | limit
  | nozzleHung
  | tagLost
  | operatorStop
  | idleTimeout
  | meterFault
  | powerFail
  | recovered
  deriving DecidableEq, Repr

/-- The tag write outcomes (R119). -/
inductive TagOutcome where
  | notAttempted
  | done
  | failed
  deriving DecidableEq, Repr

/-- The prove outcomes (R134). -/
inductive ProveOutcome where
  | accepted
  | unsteady
  | outOfRange
  | abandoned
  deriving DecidableEq, Repr

/-- How far the tag history write of the close sequence has come (R119). -/
inductive TagStep where
  | none
  | awaitProbe
  | writing
  deriving DecidableEq, Repr

/-- What the hose record shows after something ended (R105, R78, R106). -/
inductive Shown where
  | nothing
  | ended (c : EndCause)
  | refused (r : RefusalReason)
  | powerFailing
  deriving DecidableEq, Repr

/-- A Hose Controller (R105). -/
structure Hc where
  state : HoseState
  nozzleOut : Bool
  stage : Stage
  joined : Bool
  /-- cL; for a prove the vessel size -/
  limit : Option Nat
  binding : Option Binding
  forcedSlow : Bool
  machine : Option Nat
  endCause : Option EndCause
  hungSinceEnd : Bool
  /-- µL -/
  overrun : Nat
  closeTime : Option (Nat × Bool)
  summary : Option Summary
  tagOutcome : Option TagOutcome
  /-- due times of the timers and of the probe schedule; none when stopped -/
  noFlowAt : Option Nat
  idleAt : Option Nat
  drainAt : Option Nat
  drainLimitAt : Option Nat
  probeAt : Option Nat
  tagStep : TagStep
  valveAlarm : Bool
  shown : Shown
  /-- the prove outcome shown with F and F′ until the nozzle is hung or the hose is next granted (R134) -/
  proveShown : Option (ProveOutcome × Nat × Nat)
  tagNotSeen : Bool
  allowanceShown : Option Nat
  factorNotStored : Bool
  deriving DecidableEq, Repr

/-- The pump states (R124). -/
inductive PumpState where
  | stopped
  | running
  | runOn
  deriving DecidableEq, Repr

/-- The Pump Controller (R124). -/
structure Pump where
  state : PumpState
  runOnAt : Option Nat
  level : Nat
  fallAt : Option Nat
  waiting : Two Bool
  deriving DecidableEq, Repr

/-! ### The journal (chapter 8) -/

/-- The fields of a DISPENSE record that are set at close (R141). -/
structure CloseFields where
  gross : Nat
  std : Nat
  overrun : Nat
  theta : Int
  held : Bool
  overspeed : Nat
  endCause : EndCause
  tagOutcome : TagOutcome
  time : Nat
  sure : Bool
  amount : Nat
  recovered : Bool
  deriving DecidableEq, Repr

/-- A DISPENSE record's fields (R141), its accumulation, and what R203's fall needs: the close adjustment
that SU has applied for it, 0 until then. -/
structure DispenseRec where
  hose : Hose
  machine : Nat
  cls : Nat
  costCentre : Nat
  operator : Option Nat
  limit : Nat
  binding : Binding
  blind : Bool
  book : Nat
  price : Nat
  unpriced : Bool
  accGross : Nat
  accStd : Nat
  accOverrun : Nat
  stopNotice : Bool
  adjustment : Int
  close : Option CloseFields
  deriving DecidableEq, Repr

/-- A PROVE record's fields (R142). -/
structure ProveRec where
  hose : Hose
  band : Option Nat
  oldF : Nat
  newF : Nat
  vm : Nat
  vp : Option Nat
  outcome : ProveOutcome
  supervisor : Nat
  deriving DecidableEq, Repr

/-- The outcomes of a stock check (R184). -/
inductive CheckOutcome where
  | inside
  | outLow
  | outHigh
  deriving DecidableEq, Repr

/-- A record's kind with its fields (R142). -/
inductive RecBody where
  | dispense (d : DispenseRec)
  | refusal (h : Hose) (reason : RefusalReason) (machine : Option Nat) (operator : Option Nat)
  | prove (p : ProveRec)
  | delivery (station number volume : Nat) (bookAfter : Int) (overCapacity : Bool)
  | stockCheck (gauge : Nat) (book variance : Int) (outcome : CheckOutcome) (lossAfter : Bool)
  | adjust (delta : Int) (supervisor : Nat)
  | priceBook (new previous : Nat)
  | lost
  deriving DecidableEq, Repr

/-- The states of a record that is not yet collected (R143). -/
inductive RecState where
  | opened
  | closed
  | offered
  deriving DecidableEq, Repr

/-- A numbered record above the mark (R140, R143, R157). -/
structure JRec where
  number : Nat
  time : Nat
  sure : Bool
  body : RecBody
  state : RecState
  offers : Nat
  dueAt : Option Nat
  deriving DecidableEq, Repr

/-- Where a hose's open DISPENSE record stands (R143, R145, R146). -/
inductive Slot where
  | reserved (d : DispenseRec)
  | numbered (number : Nat)
  deriving DecidableEq, Repr

/-- A request on JU's waiting list, one for each requester (R151). -/
inductive WaitReq where
  | prove (p : ProveRec)
  | adjust (delta : Int) (supervisor : Nat)
  | priceBook (new previous : Nat)
  deriving DecidableEq, Repr

/-- An entry of the write list (R152). -/
inductive WriteEntry where
  | record (number : Nat)
  | mark
  deriving DecidableEq, Repr

/-- The offer in queue (R154). `serial` tells one offer of a record from another. -/
structure Offer where
  number : Nat
  serial : Nat
  fragments : Nat
  deriving DecidableEq, Repr

/-- The Journal Unit. -/
structure Ju where
  /-- the records above the mark, by rising number -/
  recs : List JRec
  /-- the DISPENSE records at or below the mark that RECOVERY found OPEN, by rising number, each until its close
  has been written (R205) -/
  old : List JRec
  counter : Nat
  mark : Nat
  slots : Two (Option Slot)
  /-- per hose, a closed DISPENSE record whose closed write has not ended GOOD (R203) -/
  unsaved : Two (Option JRec)
  waiting : List WaitReq
  writeList : List WriteEntry
  /-- the entry being written and whether a record's closed contents are -/
  writing : Option (WriteEntry × Bool)
  offer : Option Offer
  serial : Nat
  retryAt : Option Nat
  reoffers : Nat
  rollover : Bool
  markAhead : Nat
  openRefused : Bool
  withdrawRefused : Bool
  deriving DecidableEq, Repr

/-! ### Price books (chapter 9) -/

/-- The states of a price bank (R163). -/
inductive BankState where
  | empty
  | loading
  | pending
  | active
  | standby
  deriving DecidableEq, Repr

/-- A price book (R163). -/
structure Book where
  number : Nat
  effective : Nat
  count : Nat
  entries : List PriceEntry
  crc : Half
  deriving DecidableEq, Repr

/-- A price bank: its state and, except in EMPTY, its book. -/
structure Bank where
  state : BankState
  book : Option Book
  deriving DecidableEq, Repr

/-- The two price banks. -/
structure Banks where
  one : Bank
  two : Bank
  deriving DecidableEq, Repr

/-- Which bank. -/
inductive BankId where
  | one
  | two
  deriving DecidableEq, Repr

/-- The load in progress (R165); number, time and count stand in the target bank's book. -/
structure Load where
  target : BankId
  /-- entry fragments received, those past the eighth counted too -/
  received : Nat
  entries : List PriceEntry
  deriving DecidableEq, Repr

/-- The switch states (section 9.3). -/
inductive SwitchState where
  | idle
  | waiting
  | writing
  | blocked
  deriving DecidableEq, Repr

/-- The Price Book Unit. -/
structure Pbu where
  banks : Banks
  load : Option Load
  switchState : SwitchState
  ignoredBook : Nat
  badBook : Nat
  /-- a change was made after the bank write under way was performed (R164) -/
  again : Bool
  deriving DecidableEq, Repr

/-! ### Stock (chapter 10) -/

/-- The gauge states (R174). -/
inductive GaugeState where
  | starting
  | good
  | fault
  deriving DecidableEq, Repr

/-- The Stock Unit. -/
structure Su where
  /-- signed, µL -/
  book : BitVec 48
  /-- pairs of bulk station id and delivery number, oldest first -/
  memory : List (Nat × Nat)
  loss : Bool
  lowCount : Nat
  gauge : GaugeState
  strapUsable : Bool
  lastValid : Nat
  /-- the gauge standard, cL -/
  standard : Option Nat
  history : List Nat
  lastLevel : Option Nat
  lastTemp : Option Int
  lastMove : Nat
  proveActive : Bool
  /-- the last prove end (R137) -/
  proveEnd : Option Nat
  lastCheck : Nat
  deliverySince : Bool
  retryAt : Option Nat
  checkSkipped : Bool
  lastOutcome : Option (CheckOutcome × Int)
  /-- eight hourly totals in µL, newest first -/
  hours : List Nat
  hourEnd : Nat
  claim : Bool
  gaugeBad : Nat
  strapClamp : Nat
  badDelivery : Nat
  duplicateDelivery : Nat
  notRecorded : Nat
  notRecordedUntil : Option Nat
  overCapacity : Bool
  /-- station, number, volume and frame time of the last accepted delivery -/
  lastDelivery : Option (Nat × Nat × Nat × Nat)
  settledSeq : Nat
  /-- a change was made after the stock write under way was performed (R180) -/
  again : Bool
  deriving DecidableEq, Repr

/-! ### The store (chapter 11.3) -/

/-- An area of the store: never written, written with its area check behind its contents, or holding bytes that
stand for no contents with a check (R200, R211). -/
inductive Area (α : Type) where
  | neverWritten
  | written (contents : α) (check : Half)
  | damaged
  deriving DecidableEq, Repr

/-- What a position of the journal ring holds: a record written OPEN or closed (R213). -/
structure StoredRecord where
  isClosed : Bool
  number : Nat
  time : Nat
  sure : Bool
  body : RecBody
  deriving DecidableEq, Repr

/-- The journal header. -/
structure JournalHeader where
  counter : Nat
  mark : Nat
  deriving DecidableEq, Repr

/-- A dispense entry of the stock area (R203), in µL. -/
structure Flight where
  number : Nat
  gross : Nat
  overrun : Nat
  fall : Int
  deriving DecidableEq, Repr

/-- The contents of the stock area (R203). -/
structure StockArea where
  book : BitVec 48
  memory : List (Nat × Nat)
  loss : Bool
  bookSeq : Nat
  settledSeq : Nat
  flights : Two (Option Flight)
  deriving DecidableEq, Repr

/-- The store: the ring as a list of written or damaged positions, by rising position. -/
structure Store where
  ring : List (Nat × Area StoredRecord)
  header : Area JournalHeader
  factors : Two (Area (Quad Nat))
  banks : Area Banks
  stock : Area StockArea
  clock : Area Nat
  deriving DecidableEq, Repr

/-- The requesters of store writes (R201). -/
inductive Requester where
  | ju
  | su
  | pbu
  | lc
  | hc (h : Hose)
  | proving
  deriving DecidableEq, Repr

/-- The contents of a write, taken when SC performs it (R201). -/
inductive WriteContents where
  | record (r : StoredRecord) (counter : Nat)
  | mark (n : Nat)
  | stock (area : StockArea)
  | banks (b : Banks)
  | clock (n : Nat)
  | factors (h : Hose) (q : Quad Nat)
  deriving DecidableEq, Repr

/-- The Store Controller (R201, R202). -/
structure Sc where
  queue : List Requester
  current : Option (Requester × WriteContents)
  fault : Bool
  failures : Nat
  lastFailed : Option AreaName
  /-- areas that STORE READ found failing, as the diagnostic page names them (R200) -/
  damaged : List AreaName
  deriving DecidableEq, Repr

/-! ### The site link (chapter 1) -/

/-- The link states (section 1.5). -/
inductive LinkState where
  | listen
  | announce
  | joined
  | isolated
  | withdrawn
  deriving DecidableEq, Repr

/-- The block that asked for a frame, with what its reports need (R7, R11). -/
inductive FrameOwner where
  | hello
  | status
  | draw
  | query (h : Hose) (id : Nat)
  | answer
  /-- fragment `index` of the `fragments` of an offer -/
  | offer (serial : Nat) (index fragments : Nat)
  deriving DecidableEq, Repr

/-- A frame waiting to go or being sent (R7): the frame bytes, without the length byte. -/
structure TxFrame where
  cls : Nat
  owner : FrameOwner
  bytes : List Byte
  deriving DecidableEq, Repr

/-- The backoff countdown of the head frame (R4). -/
structure Countdown where
  left : Nat
  counting : Bool
  slotFrom : Nat
  deriving DecidableEq, Repr

/-- What LC is receiving: no carrier, a frame of the present carrier not yet judged, or one that has
been, after which the carrier's bytes are ignored (R12). -/
inductive RxPhase where
  | quiet
  | receiving
  | judged
  deriving DecidableEq, Repr

/-- Record spacing (R6); `idleSince` is when the channel last became idle, none while it is not. -/
structure Spacing where
  held : Bool
  count : Nat
  idleTotal : Nat
  idleSince : Option Nat
  deriving DecidableEq, Repr

/-- The counters of R13 and R15. -/
structure FrameCounters where
  length : Nat
  crc : Nat
  kind : Nat
  spare : Nat
  source : Nat
  ownId : Nat
  fragment : Nat
  deriving DecidableEq, Repr

/-- An open reassembly (R15). -/
structure Reassembly where
  source : Nat
  next : Nat
  accepted : Nat
  lastAt : Nat
  deriving DecidableEq, Repr

/-- An entry of the claims list (R190). -/
structure Claim where
  station : Nat
  cover : Nat
  heardAt : Nat
  deriving DecidableEq, Repr

/-- The Link Controller. -/
structure Lc where
  link : LinkState
  startNumber : BitVec 16
  listenAt : Option Nat
  settleAt : Option Nat
  joinedAt : Nat
  lastHeard : Option Nat
  lastStatusAt : Option Nat
  queue : List TxFrame
  countdown : Option Countdown
  /-- the frame in transmission and when it began -/
  tx : Option (TxFrame × Nat)
  carrier : Bool
  rx : RxPhase
  gapMet : Bool
  gapFrom : Nat
  spacing : Spacing
  counters : FrameCounters
  reassembly : Option Reassembly
  claims : List Claim
  clock : Nat
  sure : Bool
  /-- the end of a hold of the site clock -/
  hold : Option Nat
  nextCount : Nat
  nextStoring : Nat
  deriving DecidableEq, Repr

/-! ### Proving and the inspect page (chapter 7) -/

/-- The phases of a prove (section 7.1). -/
inductive ProvePhase where
  | none
  | select
  | size
  | ready
  | run
  | reading
  | recording
  deriving DecidableEq, Repr

/-- What RECORDING waits for (R135): the waiting list, the record's write, or the factor's write. -/
inductive RecordStep where
  | none
  | waiting
  | record (number : Nat)
  | factor
  deriving DecidableEq, Repr

/-- A factor write that meter proving has asked for (R135): the hose, the band and F′. -/
structure FactorWrite where
  hose : Hose
  band : Nat
  newF : Nat
  deriving DecidableEq, Repr

/-- The prove (R129). -/
structure Prove where
  phase : ProvePhase
  supervisor : Nat
  hose : Option Hose
  /-- cL -/
  vessel : Option Nat
  endCause : Option EndCause
  summary : Option Summary
  /-- the factor set of the prove dispense, kept from its close for R134 -/
  factors : Quad Nat
  vp : Option Nat
  outcome : Option ProveOutcome
  band : Option Nat
  oldF : Nat
  newF : Nat
  timerAt : Option Nat
  step : RecordStep
  /-- the factor write that has been asked for and has not ended; the warning leaves it standing (R136) -/
  factorWrite : Option FactorWrite
  deriving DecidableEq, Repr

/-- The inspect page (R138): when it closes, the sub-address last shown and its value. -/
structure Inspect where
  closeAt : Option Nat
  sub : Nat
  value : BitVec 32
  deriving DecidableEq, Repr

/-! ### The panel port (chapters 2.4 and 11.6) -/

/-- The prompts that stand for 3 s. -/
inductive Prompt where
  | keyNotRead
  | supervisorKeyRequired
  | presetTooSmall
  | presetNotTaken
  | nothingToStop
  | storeFault
  | proveInProgress
  | powerFailing
  | hoseNotIdle
  | vesselSizeOutOfRange
  | readingOutOfRange
  | nothingToAcknowledge
  | gaugeNotSettled
  deriving DecidableEq, Repr

/-- The items of a hose record (R210). -/
structure HoseRecord where
  state : HoseState
  stage : Stage
  /-- live standard volume, cL, truncated (R101) -/
  liveStd : Option Nat
  limit : Option Nat
  binding : Option Binding
  blind : Bool
  unpriced : Bool
  operatorPending : Bool
  preset : Option Nat
  /-- the completion code shown beside "reading tag" (R65) -/
  readCode : Option Completion
  /-- "asking peers" (R57) -/
  askingPeers : Bool
  shown : Shown
  proveShown : Option (ProveOutcome × Nat × Nat)
  theta : Option Int
  tempHeld : Bool
  reverses : Nat
  rate : Nat
  tagNotSeen : Bool
  pumpHeld : Bool
  allowance : Option Nat
  factorNotStored : Bool
  deriving DecidableEq, Repr

/-- The items of the site line (R210): figures, selections, alarms and the prompt. -/
structure SiteLine where
  starting : Bool
  powerFailing : Bool
  book : Int
  available : Nat
  cover : Nat
  claim : Bool
  position : Nat
  link : LinkState
  pump : PumpState
  budget : Nat
  selected : Hose
  key : Option Nat
  supervisor : Bool
  digits : List Nat
  notConfigured : Bool
  storeFault : Bool
  gaugeFault : Bool
  lossSuspect : Bool
  journalLow : Bool
  journalFull : Bool
  recordWaiting : Bool
  adjustWaiting : Bool
  proveWaiting : Bool
  noPriceBook : Bool
  priceBookWaiting : Bool
  priceBookNotSwitched : Bool
  valveNotClosing : Two Bool
  stockCheckSkipped : Bool
  deliveryNotRecorded : Bool
  overCapacity : Bool
  panelLost : Bool
  provePhase : ProvePhase
  /-- V_m in READING (R132) -/
  proveVm : Option Nat
  prompt : Option Prompt
  deriving DecidableEq, Repr

/-- The figures of a TIU on the diagnostic page (section 2.3). -/
structure TiuFigures where
  busy : TagBusy
  code : Option Completion
  present : Bool
  misses : Nat
  generation : Option Nat
  headErrors : Nat
  deriving DecidableEq, Repr

/-- The figures of an MU on the diagnostic page. -/
structure MuFigures where
  limitsDefaulted : Bool
  lastTemp : Option Int
  sampleBad : Bool
  stray : Nat
  reverse : Nat
  mismatch : Nat
  openRefused : Bool
  closeRefused : Bool
  deriving DecidableEq, Repr

/-- The counters and figures that the chapters place on the diagnostic page (R210). -/
structure Diagnostics where
  counters : FrameCounters
  /-- seconds since the last heard frame, or "none" (R20) -/
  sinceHeard : Option Nat
  startNumber : BitVec 16
  claims : Nat
  tiu : Two TiuFigures
  entriesInUse : Nat
  evictions : Nat
  mu : Two MuFigures
  freeSlots : Nat
  counter : Nat
  mark : Nat
  highestClosed : Nat
  uncollected : Nat
  offer : Option Nat
  reoffers : Nat
  rollover : Bool
  markAhead : Nat
  openRefused : Bool
  withdrawRefused : Bool
  banks : Banks
  ignoredBook : Nat
  badBook : Nat
  lastLevel : Option Nat
  tankTemp : Option Int
  standard : Option Nat
  historySpan : Option Nat
  /-- the first of the four conditions of R182 that fails, 0 when settled -/
  unsettled : Nat
  lastOutcome : Option (CheckOutcome × Int)
  gaugeBad : Nat
  strapClamp : Nat
  badDelivery : Nat
  duplicateDelivery : Nat
  notRecorded : Nat
  lastDelivery : Option (Nat × Nat × Nat × Nat)
  lastProveEnd : Option Nat
  pairsRead : Nat
  rejected : Nat
  firstRejected : Option (Nat × Nat)
  incomplete : Bool
  configured : Bool
  memoryNotRead : Bool
  strapInvalid : Bool
  /-- the first missing point, when given points follow it (R198) -/
  strapGap : Option Nat
  failures : Nat
  lastFailed : Option AreaName
  damaged : List AreaName
  panelBad : Nat
  absences : Nat
  deriving DecidableEq, Repr

/-- The content of a message from the part to the panel (R214). -/
inductive PanelOut where
  | acknowledge (number : Byte)
  | hoseRecord (h : Hose) (r : HoseRecord)
  | siteLine (r : SiteLine)
  | diagnosticPage (page : Byte) (d : Diagnostics)
  | inspect (sub : Nat) (value : BitVec 32)
  deriving DecidableEq, Repr

/-- A display record last sent and when (R210). -/
structure Sent (α : Type) where
  record : α
  sentAt : Nat
  deriving DecidableEq, Repr

/-- The Panel Port. -/
structure Pp where
  key : Option Nat
  authority : Bool
  selected : Hose
  pendingOp : Two (Option Nat)
  lastTaken : Option Byte
  present : Bool
  lastGood : Nat
  absences : Nat
  panelBad : Nat
  /-- the number of the next message from the part -/
  outNumber : Byte
  /-- the lines that the last command sent, each with its length byte and check -/
  sent : List (List Byte)
  /-- the page that the last PANEL_STATUS named, 0 for none -/
  page : Byte
  /-- the pages asked for that PP has not yet sent, in the order last asked for (R214) -/
  pagesDue : List Byte
  pageSent : Option (Sent (Byte × Diagnostics))
  hoseSent : Two (Option (Sent HoseRecord))
  siteSent : Option (Sent SiteLine)
  refreshAt : Nat
  prompt : Option (Prompt × Nat)
  deriving DecidableEq, Repr

/-! ### The whole part -/

/-- The supply and the phases of start-up (R196): off, DOWNLOAD to RECOVERY, released. -/
inductive Power where
  | off
  | startUp
  | released
  deriving DecidableEq, Repr

/-- The reasons a step stops with a fault. The spec names no behaviour that stops the part, so there is
none: no meaning can answer a fault. -/
inductive Fault where
  deriving DecidableEq, Repr

/-- The reasons a step is refused. -/
inductive Refusal where
  /-- raised by `exec` for a command that has no meaning yet; safe -/
  | notModelled (mnemonic : String)
  deriving DecidableEq, Repr

/-- The state of the part and of its store, with the queue of commands that wait. -/
structure State where
  pending : List Instr
  power : Power
  warned : Bool
  warnPending : Bool
  now : Nat
  draws : Nat
  cfg : Cfg
  store : Store
  lc : Lc
  tiu : Two Tiu
  mt : Mt
  au : Au
  mu : Two Mu
  hc : Two Hc
  pump : Pump
  ju : Ju
  pbu : Pbu
  su : Su
  sc : Sc
  pp : Pp
  prove : Prove
  inspect : Inspect
  deriving DecidableEq, Repr

/-! ### Power-on values -/

/-- The defaults of blocks 2 and 3 (R198). -/
def HoseParams.default (slowDown : Nat) : HoseParams :=
  { pulseWeight := 10000, windowN := 5, limits := ⟨300, 1200, 2000, 3000⟩,
    factors := Quad.all 100000, alpha := 830, slowDown := slowDown }

/-- The defaults of R198. -/
def Params.default : Params :=
  { station := none, product := 1, bitRate := 1, queryWait := 2,
    hose := ⟨HoseParams.default 500, HoseParams.default 100⟩,
    tankCapacity := 20000, heel := 100, reservePercent := 10, reorderPercent := 25, reorderCover := 40,
    tankAlpha := 830, strapPoints := List.replicate 24 (none, none), maxDispense := 2000, blindCap := 200,
    supervisors := List.replicate 8 (0, 0) }

/-- CFL before any pair is read. -/
def Cfg.initial : Cfg :=
  { params := Params.default, pairsRead := 0, rejected := 0, firstRejected := none, incomplete := false,
    configured := false, notRead := false }

/-- A new store (R200). -/
def Store.new : Store :=
  { ring := [], header := .neverWritten, factors := Two.both .neverWritten, banks := .neverWritten,
    stock := .neverWritten, clock := .neverWritten }

/-- A TIU after power-on (section 2.3). -/
def Tiu.initial : Tiu :=
  { busy := .idle, requester := none, waiting := none, number := 0, code := none, record := none,
    present := false, misses := 0, headErrors := 0 }

/-- The Machine Table after power-on (R63). -/
def Mt.initial : Mt := { entries := [], evictions := 0, wait := Two.both .none, serial := 0 }

/-- A session NONE, every field none (R64); `serial` says how many the hose has had. -/
def Session.empty (serial : Nat) : Session :=
  { startAt := none, nextRead := none, keyWaitFrom := none, fixed := none, ident := none, fresh := false,
    blind := false, terms := none, presetTerm := none, serial := serial }

/-- AU after power-on (R64, R80). -/
def Au.initial : Au :=
  { session := Two.both (Session.empty 0), preset := Two.both none, digits := [] }

/-- An MU after power-on (R103), with its factor table, its limits in force and its first window's end. -/
def Mu.initial (table limits : Quad Nat) (defaulted : Bool) (windowEnd : Nat) : Mu :=
  { table := table, limits := limits, limitsDefaulted := defaulted, dispense := none, rises := 0,
    falls := 0, edgeSeen := false, windowCount := 0, windowEnd := windowEnd, lastRate := 0,
    lastTemp := none, sampleBad := false, stray := 0, reverse := 0, mismatch := 0, openRefused := false,
    closeRefused := false }

/-- An HC after power-on (R105), by its holster switch. -/
def Hc.initial (nozzleOut : Bool) : Hc :=
  { state := if nozzleOut then .hangWait else .idle, nozzleOut := nozzleOut, stage := .closed,
    joined := false, limit := none, binding := none, forcedSlow := false, machine := none,
    endCause := none, hungSinceEnd := false, overrun := 0, closeTime := none, summary := none,
    tagOutcome := none, noFlowAt := none, idleAt := none, drainAt := none, drainLimitAt := none,
    probeAt := none, tagStep := .none, valveAlarm := false, shown := .nothing, proveShown := none,
    tagNotSeen := false, allowanceShown := none, factorNotStored := false }

/-- The Pump Controller after power-on (R124). -/
def Pump.initial : Pump :=
  { state := .stopped, runOnAt := none, level := 0, fallAt := none, waiting := Two.both false }

/-- JU with a new store (R161). -/
def Ju.initial : Ju :=
  { recs := [], old := [], counter := 0, mark := 0, slots := Two.both none, unsaved := Two.both none, waiting := [],
    writeList := [], writing := none, offer := none, serial := 0, retryAt := none, reoffers := 0,
    rollover := false, markAhead := 0, openRefused := false, withdrawRefused := false }

/-- A bank in EMPTY. -/
def Bank.empty : Bank := { state := .empty, book := none }

/-- PBU with a new store (R164). -/
def Pbu.initial : Pbu :=
  { banks := ⟨Bank.empty, Bank.empty⟩, load := none, switchState := .idle, ignoredBook := 0, badBook := 0,
    again := false }

/-- SU with a new store (R194); an unusable strapping table holds the gauge in GAUGE_FAULT (R176). -/
def Su.initial (strapUsable : Bool) : Su :=
  { book := 0, memory := [], loss := false, lowCount := 0,
    gauge := if strapUsable then .starting else .fault, strapUsable := strapUsable, lastValid := 0,
    standard := none, history := [], lastLevel := none, lastTemp := none, lastMove := 0,
    proveActive := false, proveEnd := none, lastCheck := 0, deliverySince := false, retryAt := none,
    checkSkipped := false, lastOutcome := none, hours := List.replicate 8 0, hourEnd := sec 3600,
    claim := false, gaugeBad := 0, strapClamp := 0, badDelivery := 0, duplicateDelivery := 0,
    notRecorded := 0, notRecordedUntil := none, overCapacity := false, lastDelivery := none,
    settledSeq := 0, again := false }

/-- SC at RELEASE with an intact store (R201, R202). -/
def Sc.initial : Sc :=
  { queue := [], current := none, fault := false, failures := 0, lastFailed := none, damaged := [] }

/-- LC after power-on: R17 (the link), R25 (the clock), R6, R13, R15, R190. The two conditions that
start-up settles, the link and the clock, are arguments. A carrier that is active at this moment is received from its
next byte on, taken as a length byte (log 65). -/
def Lc.initial (link : LinkState) (startNumber : BitVec 16) (carrier : Bool) (clock : Nat) : Lc :=
  { link := link, startNumber := startNumber,
    listenAt := if link = .listen then some (sec 3) else none, settleAt := none, joinedAt := 0,
    lastHeard := none, lastStatusAt := none, queue := [], countdown := none, tx := none,
    carrier := carrier, rx := if carrier then .receiving else .quiet, gapMet := false, gapFrom := 0,
    spacing := { held := false, count := 0, idleTotal := 0, idleSince := if carrier then none else some 0 },
    counters := { length := 0, crc := 0, kind := 0, spare := 0, source := 0, ownId := 0, fragment := 0 },
    reassembly := none, claims := [], clock := clock, sure := false, hold := none, nextCount := sec 1,
    nextStoring := sec 60 }

/-- PP after power-on (R41, R207, R209). -/
def Pp.initial : Pp :=
  { key := none, authority := false, selected := .a, pendingOp := Two.both none, lastTaken := none,
    present := false, lastGood := 0, absences := 0, panelBad := 0, outNumber := 0, sent := [], page := 0,
    pagesDue := [], pageSent := none, hoseSent := Two.both none, siteSent := none, refreshAt := sec 1, prompt := none }

/-- No prove, every field cleared (R129). -/
def Prove.initial : Prove :=
  { phase := .none, supervisor := 0, hose := none, vessel := none, endCause := none, summary := none,
    factors := Quad.all 0, vp := none, outcome := none, band := none, oldF := 0, newF := 0,
    timerAt := none, step := .none, factorWrite := none }

/-- The inspect page closed (R138), its sub-address and value 0 until the first press (log 41). -/
def Inspect.initial : Inspect := { closeAt := none, sub := 0, value := 0 }

/-- The part with its supply off: the working state is lost (R206), the store stands, and every block
stands at its power-on value for a part not yet configured. -/
def State.unpowered (pending : List Instr) (draws : Nat) (store : Store) : State :=
  { pending := pending, power := .off, warned := false, warnPending := false, now := 0, draws := draws,
    cfg := Cfg.initial, store := store, lc := Lc.initial .withdrawn 0 false 0, tiu := Two.both Tiu.initial,
    mt := Mt.initial, au := Au.initial,
    mu := Two.both (Mu.initial (Quad.all 100000) ⟨300, 1200, 2000, 3000⟩ false (ms 500)),
    hc := Two.both (Hc.initial false), pump := Pump.initial, ju := Ju.initial, pbu := Pbu.initial,
    su := Su.initial false, sc := Sc.initial, pp := Pp.initial, prove := Prove.initial,
    inspect := Inspect.initial }

/-- The part before its supply first comes up, with a new store (log 4). -/
def State.reset : State := State.unpowered [] 0 Store.new

end Sys2Proof.Machine
end

