-- ==== Sys2Proof/Machine/Formats.lean ====
section
/-! DEFINITION. The byte layouts of chapter 12: the check value, link frames, journal records, tag
fragments and panel messages, each built and read. -/

namespace Sys2Proof.Machine

/-! ### Bytes and the check value (R211) -/

/-- The low `k` bytes of a number, most significant first (chapter 12, opening). -/
def be : Nat → Nat → List Byte
  | 0, _ => []
  | k + 1, v => BitVec.ofNat 8 (v / 256 ^ k) :: be k v

/-- The low `k` bytes of a two's complement number. -/
def beSigned (k : Nat) (v : Int) : List Byte := be k (v % (256 ^ k : Nat)).toNat

/-- The number that bytes stand for, most significant first. -/
def ofBe (bytes : List Byte) : Nat := bytes.foldl (fun acc b => acc * 256 + b.toNat) 0

/-- Bytes `from` on, `k` of them, as a number. -/
def field (bytes : List Byte) (start k : Nat) : Nat := ofBe ((bytes.drop start).take k)

/-- One step of the register: shift left, and 0x3D65 when a 1 drops out (R211). -/
def crcStep (r : Half) : Half := if r.msb then (r <<< 1) ^^^ 0x3D65#16 else r <<< 1

/-- A byte taken into the register: into the upper eight bits, then eight steps (R211). -/
def crcByte (r : Half) (b : Byte) : Half :=
  crcStep (crcStep (crcStep (crcStep (crcStep (crcStep (crcStep (crcStep
    (r ^^^ (b.zeroExtend 16 <<< 8)))))))))

/-- The check value of the bytes in order (R211). -/
def checkValue (bytes : List Byte) : Half := ~~~(bytes.foldl crcByte 0#16)

/-- A one-bit field. -/
def bit (x : Bool) (place : Nat) : Nat := if x then 2 ^ place else 0

/-- Bytes with their check value behind them. -/
def withCheck (bytes : List Byte) : List Byte := bytes ++ be 2 (checkValue bytes).toNat

/-! ### Draws -/

/-- The eight bytes of a draw (R212). -/
def wireDrawBytes (d : WireDraw) : List Byte :=
  BitVec.ofNat 8 (bit d.sure 7 + bit d.bit6 6 + d.bowser.toNat) :: (be 4 d.time.toNat ++ be 3 d.volume.toNat)

/-- A draw read from eight bytes (R212). -/
def wireDrawOf (bytes : List Byte) : WireDraw :=
  let b0 := bytes.getD 0 0
  { sure := b0.getLsbD 7, bit6 := b0.getLsbD 6, bowser := b0.setWidth 6,
    time := BitVec.ofNat 32 (field bytes 1 4), volume := BitVec.ofNat 24 (field bytes 5 3) }

/-- A draw as it goes on a line or a tag; bit 6 is zero (R212). -/
def Draw.toWire (d : Draw) : WireDraw :=
  { sure := d.sure, bit6 := false, bowser := BitVec.ofNat 6 d.bowser, time := BitVec.ofNat 32 d.time,
    volume := BitVec.ofNat 24 d.volume }

/-- The draw a line or a tag carries; bit 6 is part of no field (R212). -/
def Draw.ofWire (w : WireDraw) : Draw :=
  { bowser := w.bowser.toNat, time := w.time.toNat, sure := w.sure, volume := w.volume.toNat }

/-! ### Link frames (R212) -/

/-- The kind code of a body. -/
def kindCode : FrameBody → Nat
  | .hello _ _ => 1
  | .status _ => 2
  | .draw _ _ => 3
  | .query _ _ => 4
  | .answer _ _ => 5
  | .record _ _ _ => 6
  | .mark _ _ _ => 7
  | .price _ _ => 8
  | .delivery _ _ _ _ => 9

/-- An entry place of a PRICE fragment. -/
def priceEntryBytes (e : PriceEntry) : List Byte :=
  be 2 e.low.toNat ++ be 2 e.high.toNat ++ be 3 e.price.toNat

/-- The bytes of a PRICE body after the index. -/
def priceBodyBytes : PriceBody → List Byte
  | .begins n t c => be 2 n.toNat ++ be 4 t.toNat ++ [c]
  | .entries e f => priceEntryBytes e ++ priceEntryBytes f
  | .ends c => be 2 c.toNat

/-- The bytes of a body. -/
def bodyBytes : FrameBody → List Byte
  | .hello n p => be 2 n.toNat ++ [p]
  | .status b => be 2 b.startNumber.toNat ++ be 3 b.stock.toNat ++ be 2 b.cover.toNat ++ [b.claimFlag, b.position]
      ++ be 2 b.uncollected.toNat ++ be 4 b.highestClosed.toNat
  | .draw m d => be 3 m.toNat ++ wireDrawBytes d
  | .query m w => be 3 m.toNat ++ [w]
  | .answer m ds => be 3 m.toNat ++ ds.flatMap wireDrawBytes
  | .record n i chunk => be 4 n.toNat ++ [i] ++ chunk
  | .mark t n time => [t] ++ be 4 n.toNat ++ be 4 time.toNat
  | .price i b => [i] ++ priceBodyBytes b
  | .delivery t n v time => [t] ++ be 2 n.toNat ++ be 3 v.toNat ++ be 4 time.toNat

/-- The two header bytes of a frame. -/
def headerBytes (hd : Header) (kind : Nat) : List Byte :=
  [BitVec.ofNat 8 (kind * 16 + bit hd.beginFlag 3 + bit hd.endFlag 2 + hd.spare0.toNat),
   BitVec.ofNat 8 (hd.spare1.toNat * 64 + hd.source.toNat)]

/-- The frame bytes of a header and a body: header, body, CRC over both (R1, R211). -/
def frameBytes (hd : Header) (body : FrameBody) : List Byte :=
  withCheck (headerBytes hd (kindCode body) ++ bodyBytes body)

/-- A frame as it goes on the line: the length byte, then the frame bytes (R1). -/
def lineBytes (frame : List Byte) : List Byte := BitVec.ofNat 8 frame.length :: frame

/-- The header of a frame that the part sends whole: both fragment flags set, spare bits zero (R13). -/
def wholeHeader (station : Nat) : Header :=
  { beginFlag := true, endFlag := true, spare0 := 0, spare1 := 0, source := BitVec.ofNat 6 station }

/-- The body lengths a kind allows (R212); for PRICE the flags say which. -/
def bodyLengthAllowed (kind : Nat) (beginFlag endFlag : Bool) (n : Nat) : Bool :=
  match kind with
  | 1 => n == 3
  | 2 => n == 15
  | 3 => n == 11
  | 4 => n == 4
  | 5 => n == 11 || n == 19
  | 6 => decide (6 ≤ n) && decide (n ≤ 24)
  | 7 => n == 9
  | 8 => if beginFlag then n == 8 else if endFlag then n == 3 else n == 15
  | 9 => n == 10
  | _ => true

/-- A body read from bytes of an allowed length; none for an unknown kind (R212). -/
def bodyOf (kind : Nat) (beginFlag endFlag : Bool) (b : List Byte) : Option FrameBody :=
  match kind with
  | 1 => some (.hello (BitVec.ofNat 16 (field b 0 2)) (b.getD 2 0))
  | 2 => some (.status
      { startNumber := BitVec.ofNat 16 (field b 0 2), stock := BitVec.ofNat 24 (field b 2 3),
        cover := BitVec.ofNat 16 (field b 5 2), claimFlag := b.getD 7 0, position := b.getD 8 0,
        uncollected := BitVec.ofNat 16 (field b 9 2), highestClosed := BitVec.ofNat 32 (field b 11 4) })
  | 3 => some (.draw (BitVec.ofNat 24 (field b 0 3)) (wireDrawOf ((b.drop 3).take 8)))
  | 4 => some (.query (BitVec.ofNat 24 (field b 0 3)) (b.getD 3 0))
  | 5 => some (.answer (BitVec.ofNat 24 (field b 0 3))
      (wireDrawOf ((b.drop 3).take 8) :: (if b.length = 19 then [wireDrawOf ((b.drop 11).take 8)] else [])))
  | 6 => some (.record (BitVec.ofNat 32 (field b 0 4)) (b.getD 4 0) (b.drop 5))
  | 7 => some (.mark (b.getD 0 0) (BitVec.ofNat 32 (field b 1 4)) (BitVec.ofNat 32 (field b 5 4)))
  | 8 => some (.price (b.getD 0 0)
      (if beginFlag then
        .begins (BitVec.ofNat 16 (field b 1 2)) (BitVec.ofNat 32 (field b 3 4)) (b.getD 7 0)
      else if endFlag then .ends (BitVec.ofNat 16 (field b 1 2))
      else .entries
        { low := BitVec.ofNat 16 (field b 1 2), high := BitVec.ofNat 16 (field b 3 2),
          price := BitVec.ofNat 24 (field b 5 3) }
        { low := BitVec.ofNat 16 (field b 8 2), high := BitVec.ofNat 16 (field b 10 2),
          price := BitVec.ofNat 24 (field b 12 3) }))
  | 9 => some (.delivery (b.getD 0 0) (BitVec.ofNat 16 (field b 1 2)) (BitVec.ofNat 24 (field b 3 3))
      (BitVec.ofNat 32 (field b 6 4)))
  | _ => none

/-- What checks 1 to 3 of R13 make of the bytes of one carrier. -/
inductive Judged where
  | badLength
  | badCrc
  | badKind
  | good (hd : Header) (body : FrameBody)
  deriving DecidableEq, Repr

/-- Checks 1 to 3 of R13 on the bytes LC received from the length byte on; bytes after the counted frame
are ignored (R12). -/
def judgeBytes (line : List Byte) : Judged :=
  let n := (line.getD 0 0).toNat
  let frame := (line.drop 1).take n
  let h0 := frame.getD 0 0
  let h1 := frame.getD 1 0
  let kind := h0.toNat / 16
  let body := (frame.drop 2).take (n - 4)
  if n < 4 ∨ 28 < n ∨ frame.length < n ∨
      bodyLengthAllowed kind (h0.getLsbD 3) (h0.getLsbD 2) (n - 4) = false then .badLength
  else if field frame (n - 2) 2 ≠ (checkValue (frame.take (n - 2))).toNat then .badCrc
  else
    match bodyOf kind (h0.getLsbD 3) (h0.getLsbD 2) body with
    | none => .badKind
    | some b => .good
        { beginFlag := h0.getLsbD 3, endFlag := h0.getLsbD 2, spare0 := h0.setWidth 2,
          spare1 := BitVec.ofNat 2 (h1.toNat / 64), source := h1.setWidth 6 } b

/-- The length part of check 1 on a frame that comes as fields: ANSWER, RECORD and PRICE are the kinds
whose length can miss (R212). -/
def fieldsLengthOk (hd : Header) (body : FrameBody) : Bool :=
  match body with
  | .price _ b => (match b with
    | .begins _ _ _ => hd.beginFlag
    | .entries _ _ => !hd.beginFlag && !hd.endFlag
    | .ends _ => !hd.beginFlag && hd.endFlag)
  | _ => bodyLengthAllowed (kindCode body) hd.beginFlag hd.endFlag (bodyBytes body).length

/-! ### Codes of journal records (R213) -/

def Hose.code : Hose → Nat
  | .a => 0
  | .b => 1

def Binding.code : Binding → Nat
  | .preset => 1
  | .maximum => 2
  | .capacity => 3
  | .allowance => 4
  | .stock => 5
  | .blind => 6

def EndCause.code : EndCause → Nat
  | .limit => 1
  | .nozzleHung => 2
  | .tagLost => 3
  | .operatorStop => 4
  | .idleTimeout => 5
  | .meterFault => 6
  | .powerFail => 7
  | .recovered => 8

def TagOutcome.code : TagOutcome → Nat
  | .notAttempted => 0
  | .done => 1
  | .failed => 2

def RefusalReason.code : RefusalReason → Nat
  | .tagUnreadable => 1
  | .tagInvalid => 2
  | .notConfigured => 3
  | .storeFault => 4
  | .wrongProduct => 5
  | .machineBusy => 6
  | .keyRequired => 7
  | .journalFull => 8
  | .classRestricted => 9
  | .noAllowance => 10
  | .noStock => 11

def ProveOutcome.code : ProveOutcome → Nat
  | .accepted => 1
  | .unsteady => 2
  | .outOfRange => 3
  | .abandoned => 4

def CheckOutcome.code : CheckOutcome → Nat
  | .inside => 1
  | .outLow => 2
  | .outHigh => 3

/-- The record kind codes (R213). -/
def RecBody.code : RecBody → Nat
  | .dispense _ => 1
  | .refusal _ _ _ _ => 2
  | .prove _ => 3
  | .delivery _ _ _ _ _ => 4
  | .stockCheck _ _ _ _ _ => 5
  | .adjust _ _ => 6
  | .priceBook _ _ => 7
  | .lost => 8

/-- The fields of a DISPENSE record from byte 9 (R213); bytes 28 to 49 are zero until it is closed. -/
def dispenseBytes (d : DispenseRec) : List Byte :=
  let held := match d.close with | some c => c.held | none => false
  let recovered := match d.close with | some c => c.recovered | none => false
  let closeSure := match d.close with | some c => c.sure | none => false
  [BitVec.ofNat 8 (bit (d.hose == .b) 7 + bit d.blind 6 + bit held 5 + bit d.unpriced 4 + bit recovered 3
      + bit d.operator.isSome 2 + bit closeSure 1)]
    ++ be 3 d.machine ++ [BitVec.ofNat 8 (d.cls * 16 + d.binding.code)] ++ be 2 d.costCentre
    ++ be 4 (d.operator.getD 0) ++ be 3 d.limit ++ be 2 d.book ++ be 3 d.price
    ++ (match d.close with
      | none => List.replicate 22 0
      | some c => be 3 c.gross ++ be 3 c.std ++ be 3 c.overrun ++ beSigned 2 c.theta ++ be 2 c.overspeed
          ++ [BitVec.ofNat 8 (c.endCause.code * 16 + c.tagOutcome.code)] ++ be 4 c.time ++ be 4 c.amount)

/-- The kind fields of a record, from byte 9 (R213). -/
def recordFieldBytes : RecBody → List Byte
  | .dispense d => dispenseBytes d
  | .refusal h r m o =>
    [BitVec.ofNat 8 (bit (h == .b) 7 + bit m.isSome 6 + bit o.isSome 5), BitVec.ofNat 8 r.code]
      ++ be 3 (m.getD 0) ++ be 4 (o.getD 0)
  | .prove p =>
    [BitVec.ofNat 8 (bit (p.hose == .b) 7 + bit p.band.isSome 6 + bit p.vp.isSome 5
        + (match p.band with | some b => b - 1 | none => 0)), BitVec.ofNat 8 p.outcome.code]
      ++ be 3 p.oldF ++ be 3 p.newF ++ be 3 p.vm ++ be 3 (p.vp.getD 0) ++ be 4 p.supervisor
  | .delivery station number volume after full =>
    [BitVec.ofNat 8 (bit full 7 + station)] ++ be 2 number ++ be 3 volume ++ beSigned 4 after
  | .stockCheck g b v o l =>
    be 4 g ++ beSigned 4 b ++ beSigned 4 v ++ [BitVec.ofNat 8 (o.code * 16 + bit l 0)]
  | .adjust delta sup => beSigned 4 delta ++ be 4 sup
  | .priceBook new previous => be 2 new ++ be 2 previous
  | .lost => []

/-- A record's encoding: the nine-byte head and the fields of its kind (R213). -/
def recordBytes (number time : Nat) (sure : Bool) (body : RecBody) : List Byte :=
  be 4 number ++ [BitVec.ofNat 8 (body.code * 16 + bit sure 0)] ++ be 4 time ++ recordFieldBytes body

/-! ### The contents of the store's areas, which the area check covers (R211) -/

/-- What a store position holds before its area check: the state byte, the encoding, and for an OPEN DISPENSE
record the accumulation as three 6-byte counts (section 12.3). -/
def positionBytes (r : StoredRecord) : List Byte :=
  (if r.isClosed then 2 else 1) :: (recordBytes r.number r.time r.sure r.body
    ++ (match r.body with
      | .dispense d => if r.isClosed then [] else be 6 d.accGross ++ be 6 d.accStd ++ be 6 d.accOverrun
      | _ => []))

/-- The journal header: the sequence counter and the mark (section 11.3). The layouts of this area and of those
below are log 52. -/
def journalHeaderBytes (x : JournalHeader) : List Byte := be 4 x.counter ++ be 4 x.mark

/-- A factor area: the four factors in band order. -/
def factorAreaBytes (q : Quad Nat) : List Byte := q.toList.flatMap (be 3)

/-- A bank's state. -/
def BankState.code : BankState → Nat
  | .empty => 0
  | .loading => 1
  | .pending => 2
  | .active => 3
  | .standby => 4

/-- A bank: its state and, but for EMPTY, its book with the book's CRC. -/
def bankBytes (b : Bank) : List Byte :=
  be 1 b.state.code ++ (match b.book with
    | some k => be 2 k.number ++ be 4 k.effective ++ be 1 k.count ++ k.entries.flatMap priceEntryBytes
        ++ be 2 k.crc.toNat
    | none => [])

/-- The two price banks. -/
def banksBytes (b : Banks) : List Byte := bankBytes b.one ++ bankBytes b.two

/-- A dispense entry of the stock area, zeros when there is none. -/
def flightBytes : Option Flight → List Byte
  | some f => be 4 f.number ++ be 6 f.gross ++ be 6 f.overrun ++ beSigned 6 f.fall
  | none => List.replicate 22 0

/-- The stock area's fields in the order of R203. -/
def stockAreaBytes (a : StockArea) : List Byte :=
  beSigned 6 a.book.toInt ++ be 1 a.memory.length ++ a.memory.flatMap (fun p => be 1 p.1 ++ be 2 p.2)
    ++ be 1 (bit a.loss 0) ++ be 4 a.bookSeq ++ be 4 a.settledSeq ++ flightBytes a.flights.a
    ++ flightBytes a.flights.b

/-- An encoding cut into chunks of 19 bytes, the last with what remains (R212). -/
def chunks : Nat → List Byte → List (List Byte)
  | 0, _ => []
  | fuel + 1, b => if b.length ≤ 19 then [b] else b.take 19 :: chunks fuel (b.drop 19)

/-- The frame bytes of the RECORD fragments of a record (R212): fragment 0 carries the begin flag, the
last the end flag. -/
def recordFrames (station number time : Nat) (sure : Bool) (body : RecBody) : List (List Byte) :=
  let cs := chunks 3 (recordBytes number time sure body)
  cs.zipIdx.map (fun p =>
    frameBytes { beginFlag := p.2 == 0, endFlag := p.2 + 1 == cs.length, spare0 := 0, spare1 := 0,
                 source := BitVec.ofNat 6 station }
      (.record (BitVec.ofNat 32 number) (BitVec.ofNat 8 p.2) p.1))

/-! ### Tag fragments (R214) -/

/-- The fixed part that fragment 0 carries, when its CRC matches (R27, R31). -/
def fixedPartOf (b : List Byte) : Option FixedPart :=
  if field b 14 2 = (checkValue (b.take 14)).toNat then
    some { format := field b 0 1, machine := field b 1 3, cls := field b 4 1 / 64,
           keyRequired := (b.getD 4 0).getLsbD 0, costCentre := field b 5 2, product := field b 7 1,
           capacity := field b 8 2, allowance := field b 10 2, window := field b 12 1 }
  else none

/-- The history that fragments 1 and 2 carry, with its validity (R28). -/
def historyOf (f1 f2 : List Byte) : History :=
  let count := field f1 3 1
  let body := f1.take 16 ++ f2.take 14
  let e1 := Draw.ofWire (wireDrawOf ((f1.drop 5).take 8))
  let e2 := Draw.ofWire (wireDrawOf ((f1.drop 13).take 3 ++ f2.take 5))
  let e3 := Draw.ofWire (wireDrawOf ((f2.drop 5).take 8))
  let entries := [e1, e2, e3].take count
  let valid := decide (field f2 14 2 = (checkValue body).toNat) && decide (count ≤ 3)
    && entries.all (fun d => decide (1 ≤ d.bowser) && decide (d.bowser ≤ 47))
  { valid := valid, machine := field f1 0 3, idCheck := field f2 13 1, generation := field f1 4 1,
    entries := if valid then entries else [] }

/-- The eight bytes of an entry place, zeros when not in use (R28). -/
def entryPlace (entries : List Draw) (i : Nat) : List Byte :=
  match entries[i]? with
  | some d => wireDrawBytes d.toWire
  | none => List.replicate 8 0

/-- The bytes of a history before its CRC, fragment 1 and then bytes 0 to 13 of fragment 2 (R211, R214). -/
def historyBody (h : History) : List Byte :=
  be 3 h.machine ++ be 1 h.entries.length ++ be 1 h.generation ++ entryPlace h.entries 0
    ++ entryPlace h.entries 1 ++ entryPlace h.entries 2 ++ be 1 h.idCheck

/-- Fragment 1 of a history. -/
def historyFragment1 (h : History) : List Byte := (historyBody h).take 16

/-- Fragment 2 of a history. -/
def historyFragment2 (h : History) : List Byte := (withCheck (historyBody h)).drop 16

/-! ### Price books (R211) -/

/-- The bytes a book's CRC covers: number, effective time, entry count and the entries in use. -/
def bookBytes (number effective count : Nat) (entries : List PriceEntry) : List Byte :=
  be 2 number ++ be 4 effective ++ be 1 count ++ entries.flatMap priceEntryBytes

/-! ### Panel messages (R214) -/

/-- The key a key code names. -/
def keyOf (code : Nat) : Option PanelIn :=
  if code ≤ 9 then some (.digit code)
  else match code with
    | 0x10 => some (.hoseKey .a)
    | 0x11 => some (.hoseKey .b)
    | 0x12 => some .enter
    | 0x13 => some .clear
    | 0x14 => some .stop
    | 0x15 => some .prove
    | 0x16 => some .ack
    | 0x17 => some .adopt
    | 0x18 => some .inspect
    | _ => none

/-- What a message from the panel comes to: its check fails, its type or key code is unknown, or it is
one of the lists of R214. -/
inductive PanelJudged where
  | bad
  | unknown (num : Byte)
  | known (num : Byte) (m : PanelIn)
  deriving DecidableEq, Repr

/-- A message from the panel judged (R207, R214): length byte, message number, type, content, check. A
known type with content of another length is taken as unknown (log 32); one cut short, or with a length byte
below 4, has failed its check (log 64). -/
def judgePanel (message : List Byte) : PanelJudged :=
  let n := (message.getD 0 0).toNat
  let rest := (message.drop 1).take n
  let num := rest.getD 0 0
  let kind := field rest 1 1
  let content := (rest.drop 2).take (n - 4)
  if n < 4 ∨ rest.length < n ∨ field rest (n - 2) 2 ≠ (checkValue (rest.take (n - 2))).toNat then .bad
  else if kind = 1 ∧ content.length = 1 then
    match keyOf (field content 0 1) with
    | some k => .known num k
    | none => .unknown num
  else if kind = 2 ∧ content.length = 4 then .known num (.keyPresented (BitVec.ofNat 32 (field content 0 4)))
  else if kind = 3 ∧ content.length = 0 then .known num .keyRemoved
  else if kind = 4 ∧ content.length = 1 then .known num (.panelStatus (content.getD 0 0))
  else .unknown num

/-! ### Messages to the panel (R214) -/

/-- The type of a message from the part. -/
def PanelOut.code : PanelOut → Nat
  | .acknowledge _ => 16
  | .hoseRecord _ _ => 17
  | .siteLine _ => 18
  | .diagnosticPage _ _ => 19
  | .inspect _ _ => 20

/-- The characters that PP composes of a record's items, in the 7-bit printable range (log 53). -/
def textBytes {α : Type} (x : α) (places : Nat) : List Byte :=
  (List.range places).map (fun i => BitVec.ofNat 8 (0x20 + Config.panelText x i % 95))

/-- A diagnostic page's lines; a page number with no page gives four blank lines. -/
def pageBytes (page : Byte) (d : Diagnostics) : List Byte :=
  if Config.pageExists page then textBytes (page, d) 80 else List.replicate 80 0x20

/-- The content of a message from the part. -/
def PanelOut.content : PanelOut → List Byte
  | .acknowledge num => [num]
  | .hoseRecord h r => be 1 (Hose.code h) ++ textBytes r 40
  | .siteLine r => textBytes r 80
  | .diagnosticPage page d => page :: pageBytes page d
  | .inspect sub value => be 1 sub ++ be 4 value.toNat

/-- A message from the part as it goes on the line: length byte, number, type, content and check. -/
def panelLine (number : Byte) (x : PanelOut) : List Byte :=
  lineBytes (withCheck (number :: (be 1 x.code ++ x.content)))

end Sys2Proof.Machine
end

