-- ==== Sys2Proof/Machine/Ops.lean ====
section
/-! DEFINITION. The operations every block shares: updates of per-hose state, elapsed time and its due
times, prompts, the book's 48-bit arithmetic, and the Store Controller's request queue with the contents
of each write. -/

namespace Sys2Proof.Machine

/-- What a meaning answers. -/
abbrev Result := Host.Outcome State Fault Refusal

/-! ### Per-hose updates -/

/-- Change a hose's HC. -/
def State.updHc (s : State) (h : Hose) (f : Hc → Hc) : State :=
  { s with hc := s.hc.set h (f (s.hc.get h)) }

/-- Change a hose's MU. -/
def State.updMu (s : State) (h : Hose) (f : Mu → Mu) : State :=
  { s with mu := s.mu.set h (f (s.mu.get h)) }

/-- Change a hose's TIU. -/
def State.updTiu (s : State) (h : Hose) (f : Tiu → Tiu) : State :=
  { s with tiu := s.tiu.set h (f (s.tiu.get h)) }

/-- Change a hose's session. -/
def State.updSession (s : State) (h : Hose) (f : Session → Session) : State :=
  { s with au := { s.au with session := s.au.session.set h (f (s.au.session.get h)) } }

/-! ### Elapsed time -/

/-- The elapsed count at the due time of a time-driven command: the command says that the time has been
reached, so a count that is short of it moves to it (log 2). -/
def State.reach (s : State) (due : Nat) : State := { s with now := max s.now due }

/-- A command taken by a part that has been released; before RELEASE it is not taken (R196, log 3). -/
def live (s : State) (f : State → State) : Result :=
  if s.power = .released then .next (f s) else .next s

/-- A time-driven command: nothing when its timer is stopped, otherwise its effect at the due time. -/
def atDue (due : Option Nat) (s : State) (f : State → State) : State :=
  match due with
  | none => s
  | some t => f (s.reach t)

/-- Raise a prompt, which stands for 3 s and replaces an earlier one (R210). -/
def prompt (p : Prompt) (s : State) : State :=
  { s with pp := { s.pp with prompt := some (p, s.now + sec 3) } }

/-! ### The book (R179) -/

/-- The book changed by an amount in µL. It is a signed 48-bit count, not clamped; what it holds beyond
that range is a free value (log 7). -/
def bookAdd (b : BitVec 48) (d : Int) : BitVec 48 :=
  let r := b.toInt + d
  if -140737488355328 ≤ r ∧ r ≤ 140737488355327 then BitVec.ofInt 48 r else Config.bookBeyondRange r

/-- µL to cL, rounded half up, for negative values too (R179). -/
def roundCl (ul : Int) : Int := (ul + 5000) / 10000

/-- µL to cL, rounded half up (R102). -/
def roundClNat (ul : Nat) : Nat := (ul + 5000) / 10000

/-- The book in cL (R179). -/
def bookCl (b : BitVec 48) : Int := roundCl b.toInt

/-! ### Journal records by number -/

/-- The position of the record numbered `n` (R143). -/
def ringPosition (n : Nat) : Nat := (n - 1) % 1024

/-- The record JU holds with a number: one above the mark, or one that RECOVERY is closing below it. -/
def Ju.find (ju : Ju) (n : Nat) : Option JRec :=
  (ju.recs.find? (fun r => r.number == n)).or (ju.old.find? (fun r => r.number == n))

/-- Change the record above the mark with a number, if there is one. -/
def Ju.upd (ju : Ju) (n : Nat) (f : JRec → JRec) : Ju :=
  { ju with recs := ju.recs.map (fun r => if r.number = n then f r else r) }

/-- Whether a record's contents are those of a closed record; only a DISPENSE record is ever written open. -/
def RecBody.isClosed : RecBody → Bool
  | .dispense d => d.close.isSome
  | _ => true

/-- A record as a write of it puts it into the store. -/
def JRec.stored (r : JRec) : StoredRecord :=
  { isClosed := r.body.isClosed, number := r.number, time := r.time, sure := r.sure, body := r.body }

/-! ### The contents of each write (R201, R203) -/

/-- The dispense entry of a record: the fall is its standard total plus the close adjustment once SU has
applied it (R203). -/
def flightOf (r : JRec) : Option Flight :=
  match r.body with
  | .dispense d => some { number := r.number, gross := d.accGross, overrun := d.accOverrun,
                          fall := (d.accStd : Int) + d.adjustment }
  | _ => none

/-- A hose's newest numbered DISPENSE record whose closed write has not ended GOOD (R203). -/
def Ju.inFlight (ju : Ju) (h : Hose) : Option JRec :=
  match ju.slots.get h with
  | some (.numbered n) => ju.find n
  | _ => ju.unsaved.get h

/-- The book changes of DELIVERY and ADJUST records whose writes have not ended (R203), in µL. -/
def pendingBookChange (recs : List JRec) : Int :=
  recs.foldl (fun acc r =>
    if r.state = .opened then
      match r.body with
      | .delivery _ _ volume _ _ => acc + (volume : Int) * 10000
      | .adjust delta _ => acc + delta * 10000
      | _ => acc
    else acc) 0

/-- The delivery pairs of DELIVERY records whose writes have not ended (R203). -/
def pendingPairs (recs : List JRec) : List (Nat × Nat) :=
  recs.filterMap (fun r =>
    if r.state = .opened then
      match r.body with
      | .delivery station number _ _ _ => some (station, number)
      | _ => none
    else none)

/-- The stock area as every write of it takes it (R203). -/
def stockArea (s : State) : StockArea :=
  { book := bookAdd s.su.book (-(pendingBookChange s.ju.recs)),
    memory := s.su.memory.filter (fun p => !(pendingPairs s.ju.recs).contains p),
    loss := s.su.loss, bookSeq := s.ju.counter, settledSeq := s.su.settledSeq,
    flights := ⟨(s.ju.inFlight .a).bind flightOf, (s.ju.inFlight .b).bind flightOf⟩ }

/-- What JU's write puts into the store: the entry at the front of its write list (R152). -/
def juContents (s : State) : WriteContents :=
  match s.ju.writeList with
  | .record n :: _ =>
    match s.ju.find n with
    | some r => .record r.stored s.ju.counter
    | none => .mark s.ju.mark
  | _ => .mark s.ju.mark

/-- The whole factor area of the proved hose: its factor table with F′ in place (R135). With no factor write
asked for there is no such write. -/
def factorContents (s : State) : WriteContents :=
  match s.prove.factorWrite with
  | some w => .factors w.hose ((s.mu.get w.hose).table.set w.band w.newF)
  | none => .factors .a s.mu.a.table

/-- The contents of a requester's write, taken at this moment (R201). -/
def writeContents (r : Requester) (s : State) : WriteContents :=
  match r with
  | .ju => juContents s
  | .su => .stock (stockArea s)
  | .hc _ => .stock (stockArea s)
  | .pbu => .banks s.pbu.banks
  | .lc => .clock s.lc.clock
  | .proving => factorContents s

/-- JU's side of a write that is performed: its front entry is the one being written (R152). -/
def juPerform (ju : Ju) : Ju :=
  match ju.writeList with
  | [] => { ju with writing := some (.mark, false) }
  | .mark :: rest => { ju with writeList := rest, writing := some (.mark, false) }
  | .record n :: rest =>
    { ju with writeList := rest,
              writing := some (.record n, match ju.find n with | some r => r.body.isClosed | none => false) }

/-- SC performs the oldest request when no write is under way (R201). -/
def scKick (s : State) : State :=
  match s.sc.current, s.sc.queue with
  | none, r :: rest =>
    { s with
      sc := { s.sc with queue := rest, current := some (r, writeContents r s) },
      ju := if r = .ju then juPerform s.ju else s.ju }
  | _, _ => s

/-- A block asks for a write; a request that still waits serves for both (R201). -/
def scAsk (r : Requester) (s : State) : State :=
  if s.sc.queue.contains r then s
  else scKick { s with sc := { s.sc with queue := s.sc.queue ++ [r] } }

/-- The requester whose write is under way. -/
def Sc.under (sc : Sc) : Option Requester := sc.current.map Prod.fst

/-- SU asks for a stock write; one asked for while SU's write is under way is asked for when it ends (R180). -/
def askStock (s : State) : State :=
  if s.sc.under = some .su then { s with su := { s.su with again := true } } else scAsk .su s

/-- PBU asks for a bank write, in the same way (R164). -/
def askBanks (s : State) : State :=
  if s.sc.under = some .pbu then { s with pbu := { s.pbu with again := true } } else scAsk .pbu s

/-- JU asks for the write at the front of its list when it has no request (R152). -/
def askJournal (s : State) : State :=
  if s.ju.writeList.isEmpty ∨ s.sc.under = some .ju then s else scAsk .ju s

/-! ### What a write leaves in the store (R202) -/

/-- A ring with a position replaced, kept by rising position. -/
def ringPut (pos : Nat) (a : Area StoredRecord) : List (Nat × Area StoredRecord) → List (Nat × Area StoredRecord)
  | [] => [(pos, a)]
  | (p, x) :: rest =>
    if pos < p then (pos, a) :: (p, x) :: rest
    else if pos = p then (pos, a) :: rest
    else (p, x) :: ringPut pos a rest

/-- An area as a write leaves it: its contents, with the area check over their bytes behind them (R211). -/
def Area.put {α : Type} (layout : α → List Byte) (x : α) : Area α := .written x (checkValue (layout x))

/-- The contents of an area whose check matches them; none for an empty area (R200, R211). -/
def Area.read {α : Type} (layout : α → List Byte) : Area α → Option α
  | .written x c => if c = checkValue (layout x) then some x else none
  | .neverWritten | .damaged => none

/-- The check of an area fails (R200). -/
def Area.fails {α : Type} (layout : α → List Byte) : Area α → Bool
  | .neverWritten => false
  | .written x c => c != checkValue (layout x)
  | .damaged => true

/-- The header as read, a new store's when it is empty (R200). -/
def Store.headerOf (st : Store) : JournalHeader := (st.header.read journalHeaderBytes).getD ⟨0, 0⟩

/-- A write put into the store whole. A record's write carries the sequence counter (R152). -/
def Store.commit (st : Store) (w : WriteContents) : Store :=
  match w with
  | .record r counter =>
    { st with ring := ringPut (ringPosition r.number) (.put positionBytes r) st.ring,
              header := .put journalHeaderBytes { counter := counter, mark := st.headerOf.mark } }
  | .mark n => { st with header := .put journalHeaderBytes { counter := st.headerOf.counter, mark := n } }
  | .stock a => { st with stock := .put stockAreaBytes a }
  | .banks b => { st with banks := .put banksBytes b }
  | .clock n => { st with clock := .put (be 4) n }
  | .factors h q => { st with factors := st.factors.set h (.put factorAreaBytes q) }

/-- The area that a write shows as its own when it ends FAILED (R202); for a record's write, which carries the
header's counter too, the ring position (log 61). -/
def WriteContents.area : WriteContents → AreaName
  | .record r _ => .ringPosition (ringPosition r.number)
  | .mark _ => .journalHeader
  | .stock _ => .stockArea
  | .banks _ => .priceBanks
  | .clock _ => .clockArea
  | .factors h _ => .factorArea h

end Sys2Proof.Machine
end

