-- ==== Sys2Proof/Machine/Link.lean ====
section
/-! DEFINITION. Getting the channel and the transmit queue (sections 1.2 and 1.3): idle channel, backoff
countdowns, record spacing, and how a frame takes its place. -/

namespace Sys2Proof.Machine

/-- The range of a class's backoff counts: its first count and how many there are (section 1.2). -/
def backoffRange (cls : Nat) : Nat × Nat :=
  match cls with
  | 1 => (0, 8)
  | 2 => (8, 8)
  | 3 => (16, 16)
  | _ => (32, 32)

/-- A count from the class's range by a number drawn (R4; log 6). -/
def backoffCount (cls drawn : Nat) : Nat :=
  (backoffRange cls).1 + drawn % (backoffRange cls).2

/-- The channel is idle while carrier sense is inactive and the part is not transmitting (R3). -/
def Lc.idle (lc : Lc) : Bool := !lc.carrier && lc.tx.isNone

/-- The idle total as it stands, at most 250 ms; it grows only while held is set (R6). -/
def Spacing.totalAt (sp : Spacing) (now : Nat) : Nat :=
  match sp.idleSince with
  | some t => if sp.held then min (ms 250) (sp.idleTotal + (now - t)) else sp.idleTotal
  | none => sp.idleTotal

/-- The channel stops being idle: the total keeps what it has (R6). -/
def Spacing.pause (sp : Spacing) (now : Nat) : Spacing :=
  { sp with idleTotal := sp.totalAt now, idleSince := none }

/-- Transmission begins: the head frame leaves the queue (R5, R7). -/
def startTx (s : State) : State :=
  match s.lc.queue with
  | [] => s
  | f :: rest =>
    { s with lc := { s.lc with queue := rest, countdown := none, tx := some (f, s.now), gapMet := false,
                               spacing := s.lc.spacing.pause s.now } }

/-- LC starts a countdown when there is a head frame, none runs for it, and spacing does not hold it back
(R4, R6). None is started while the part transmits (log 12). With the gap met counting begins at once, and a
count of zero then begins the transmission. -/
def lcKick (s : State) : State :=
  match s.lc.queue, s.lc.countdown, s.lc.tx with
  | f :: _, none, none =>
    if s.lc.spacing.held ∧ f.cls = 4 then s
    else
      let n := backoffCount f.cls (Config.backoffDraw s.draws)
      let s1 := { s with draws := s.draws + 1,
                         lc := { s.lc with countdown := some { left := n, counting := s.lc.gapMet,
                                                               slotFrom := s.now } } }
      if s.lc.gapMet ∧ n = 0 then startTx s1 else s1
  | _, _, _ => s

/-- A frame placed by class, behind the frames of its own class (R7). -/
def insertByClass (f : TxFrame) : List TxFrame → List TxFrame
  | [] => [f]
  | g :: rest => if f.cls < g.cls then f :: g :: rest else g :: insertByClass f rest

/-- The class of the head frame. -/
def headClass (q : List TxFrame) : Option Nat := q.head?.map TxFrame.cls

/-- Place a frame: one of a lower class than the frame in countdown ends that countdown (R8). -/
def placeFrame (f : TxFrame) (s : State) : State :=
  let overtakes := match headClass s.lc.queue with
    | some c => decide (f.cls < c)
    | none => true
  lcKick { s with lc := { s.lc with queue := insertByClass f s.lc.queue,
                                    countdown := if overtakes then none else s.lc.countdown } }

/-- Whether LC takes in a frame in this link state; after the warning it takes in none (R7). -/
def lcTakes (s : State) (owner : FrameOwner) : Bool :=
  !s.warned && (match s.lc.link with
    | .joined | .isolated => true
    | .announce => owner == .hello
    | .listen | .withdrawn => false)

/-- The offer a waiting frame belongs to. -/
def TxFrame.offerSerial (f : TxFrame) : Option Nat :=
  match f.owner with
  | .offer serial _ _ => some serial
  | _ => none

/-- The newest offer that has a fragment in the queue: that of the last RECORD frame. -/
def newestOffer (q : List TxFrame) : Option Nat := (q.filterMap TxFrame.offerSerial).getLast?

/-- Take every waiting fragment of an offer out; a countdown of one of them ends with it (R10). -/
def removeOffer (serial : Nat) (s : State) : State :=
  let headOut := match s.lc.queue.head? with
    | some f => f.offerSerial == some serial
    | none => false
  { s with lc := { s.lc with queue := s.lc.queue.filter (fun f => f.offerSerial != some serial),
                             countdown := if headOut then none else s.lc.countdown } }

/-- The frames of an offer of class 4, in fragment order (R7, R10). -/
def offerFrames (serial : Nat) (frames : List (List Byte)) : List TxFrame :=
  frames.zipIdx.map (fun p => { cls := 4, owner := .offer serial p.2 frames.length, bytes := p.1 })

/-- LC enqueues all fragments of an offer or refuses the whole offer (R10). -/
def enqueueOffer (serial : Nat) (frames : List (List Byte)) (s : State) : Bool × State :=
  if lcTakes s (.offer serial 0 frames.length) ∧ s.lc.queue.length + frames.length ≤ 16 then
    (true, lcKick { s with lc := { s.lc with queue := s.lc.queue ++ offerFrames serial frames } })
  else (false, s)

/-- The part's station id, 0 when it has none. -/
def stationId (s : State) : Nat := s.cfg.params.station.getD 0

end Sys2Proof.Machine
end

