-- ==== Sys2Proof/Machine/Stock.lean ====
section
/-! DEFINITION. Stock and restocking (chapter 10): the strapping table and the gauge standard, available
stock, cover and claim, queue position, and the settle test. -/

namespace Sys2Proof.Machine

/-! ### Compensation and the strapping table -/

/-- The compensation of R97 for a temperature in tenths and a coefficient in ppm per °C. -/
def c10 (alpha : Nat) (theta : Int) : Int := 10000000 - (alpha : Int) * (theta - 150)

/-- The strapping table: the given points from point 1 up to the first that is not given (R198). -/
def strapTable : List (Option Nat × Option Nat) → List (Nat × Nat)
  | (some l, some v) :: rest => (l, v) :: strapTable rest
  | _ => []

/-- Levels strictly ascending. -/
def ascending : List Nat → Bool
  | a :: b :: rest => decide (a < b) && ascending (b :: rest)
  | _ => true

/-- A usable table has at least 2 points with strictly ascending levels (R176). -/
def strapUsable (t : List (Nat × Nat)) : Bool := decide (2 ≤ t.length) && ascending (t.map Prod.fst)

/-- Interpolation between two points, volumes in cL, rounded half up also where the table falls (R177). -/
def interpolate (h : Nat) (p q : Nat × Nat) : Int :=
  let d : Int := (q.1 : Int) - p.1
  let vi : Int := (p.2 : Int) * 100
  let vj : Int := (q.2 : Int) * 100
  vi + (2 * ((h : Int) - p.1) * (vj - vi) + d) / (2 * d)

/-- The volume from point `p` on, for a level above the first point's (R177). -/
def volumeFrom (h : Nat) : Nat × Nat → List (Nat × Nat) → Int
  | p, [] => (p.2 : Int) * 100
  | p, q :: rest => if h < q.1 then interpolate h p q else volumeFrom h q rest

/-- The tank volume in cL at a level (R177). -/
def tankVolume (t : List (Nat × Nat)) (h : Nat) : Int :=
  match t with
  | [] => 0
  | p :: rest => if h ≤ p.1 then (p.2 : Int) * 100 else volumeFrom h p rest

/-- Whether a level is clamped at an end of the table: outside it, not on an end point (R177). -/
def levelClamped (t : List (Nat × Nat)) (h : Nat) : Bool :=
  (match t.head? with | some p => decide (h < p.1) | none => false)
    || (match t.getLast? with | some p => decide (p.1 < h) | none => false)

/-- The gauge standard in cL, corrected to 15.0 °C and rounded half up (R178). -/
def gaugeStandard (volume : Int) (alpha : Nat) (theta : Int) : Nat :=
  ((volume * c10 alpha theta + 5000000) / 10000000).toNat

/-! ### Available stock, cover, claim (R181, R188, R189, R191) -/

/-- Available stock in cL, which may be below zero (R181). -/
def availableStock (s : State) : Int :=
  let book := bookCl s.su.book
  let heel : Int := (s.cfg.params.heel : Int) * 100
  match s.su.gauge, s.su.standard with
  | .good, some g => min book (g : Int) - heel
  | _, _ => book - heel

/-- Available stock as given outside SU: never below 0 (R181). -/
def availableGiven (s : State) : Nat := (availableStock s).toNat

/-- The reserve in cL (R181). -/
def reserveCl (p : Params) : Nat := p.tankCapacity * p.reservePercent

/-- The reorder level in cL (R181). -/
def reorderCl (p : Params) : Nat := p.tankCapacity * p.reorderPercent

/-- Class B or C of a tag's class code. -/
def isBC (cls : Nat) : Bool := cls == 2 || cls == 3

/-- The stock term for a machine's class (R181). -/
def stockTerm (s : State) (cls : Nat) : Nat :=
  if isBC cls then (availableStock s - reserveCl s.cfg.params).toNat else (availableStock s).toNat

/-- The dispensing rate in cL per hour (R188). -/
def dispensingRate (hours : List Nat) : Nat := hours.sum / 80000

/-- The cover in tenths of an hour (R188). -/
def cover (s : State) : Nat :=
  let rate := dispensingRate s.su.hours
  if rate = 0 then 9999 else min 9999 (availableGiven s * 10 / rate)

/-- SU re-evaluates the claim (R189). -/
def reevaluateClaim (s : State) : State :=
  let low := decide (availableGiven s < reorderCl s.cfg.params)
  let short := decide (cover s < s.cfg.params.reorderCover)
  { s with su := { s.su with claim := low || short } }

/-- The queue position (R191); a part with no station id ranks as 0 among equal covers (log 59). -/
def queuePosition (s : State) : Nat :=
  if s.su.claim then
    1 + (s.lc.claims.filter (fun c => decide (c.cover < cover s)
      || (decide (c.cover = cover s) && decide (c.station < stationId s)))).length
  else 0

/-! ### The settle test (R182) -/

/-- Whether a prove counts: from its active report until 600 s after its end report (R137, R182). -/
def proveCounts (s : State) : Bool :=
  s.su.proveActive || (match s.su.proveEnd with
    | some t => decide (s.now < t + sec 600)
    | none => false)

/-- The prove's phase returns to NONE; after a run SU is told that it has ended (R137). A factor write already
asked for is left to SC (R136). -/
def proveNone (s : State) : State :=
  { s with prove := { Prove.initial with factorWrite := s.prove.factorWrite },
           su := if s.su.proveActive then { s.su with proveActive := false, proveEnd := some s.now } else s.su }

/-- The level is steady: ten levels with a span of at most 3 mm (R175). -/
def levelSteady (history : List Nat) : Bool :=
  decide (history.length = 10) && decide (history.foldl max 0 ≤ history.foldl min 1000000 + 3)

/-- The first of the four conditions of R182 that fails, 0 when the gauge is settled. -/
def firstUnsettled (s : State) : Nat :=
  if s.now < s.su.lastMove + sec 60 then 1
  else if proveCounts s then 2
  else if levelSteady s.su.history = false then 3
  else if s.su.gauge ≠ .good then 4
  else 0

/-- The gauge is settled (R182). -/
def settled (s : State) : Bool := firstUnsettled s == 0

/-- The tolerance of a stock check in cL (R184). -/
def tolerance (p : Params) : Int := 2000 + (p.tankCapacity / 2 : Nat)

/-! ### Changes of the book -/

/-- A standard increment of a billed dispense: the book falls and the current hour rises (R179, R187). It asks for no
stock write, but one that changes the book while SU's write is under way makes SU ask again when it ends (R180). -/
def suIncrement (std : Nat) (s : State) : State :=
  { s with su := { s.su with
      book := bookAdd s.su.book (-(std : Int)),
      hours := match s.su.hours with | x :: rest => (x + std) :: rest | [] => [],
      again := s.su.again || decide (s.sc.under = some .su) } }

/-- A close adjustment: the book falls by it, the current hour takes it but never goes below 0, and a stock
write is asked for (R179, R180, R187). -/
def suAdjustment (adj : Int) (s : State) : State :=
  askStock { s with su := { s.su with
      book := bookAdd s.su.book (-adj),
      hours := match s.su.hours with | x :: rest => ((x : Int) + adj).toNat :: rest | [] => [] } }

/-- A meter has moved (R90, R182). -/
def meterMoved (s : State) : State := { s with su := { s.su with lastMove := s.now } }

/-- What SU does when its ADJUST is TAKEN (R186). -/
def adjustTaken (delta : Int) (s : State) : State :=
  reevaluateClaim (askStock { s with su := { s.su with
      book := bookAdd s.su.book (delta * 10000), loss := false, lowCount := 0 } })

end Sys2Proof.Machine
end

