-- ==== Sys2Proof/Machine/Journal.lean ====
section
/-! DEFINITION. The journal (chapter 8): numbering, slots, DISPENSE records, requests and the waiting
list, the write list, offers and marks; and how LC places a frame when the queue is full, which may
displace an offer. -/

namespace Sys2Proof.Machine

/-! ### Slots and numbers -/

/-- How many reservations there are (R143). -/
def Ju.reservations (ju : Ju) : Nat :=
  (match ju.slots.a with | some (.reserved _) => 1 | _ => 0)
    + (match ju.slots.b with | some (.reserved _) => 1 | _ => 0)

/-- The free-slot count (R144). -/
def Ju.free (ju : Ju) : Nat :=
  if ju.counter = max32 then 0 else 1024 - (ju.counter - ju.mark) - ju.reservations

/-- The highest closed sequence (R153). -/
def Ju.highestClosed (ju : Ju) : Nat :=
  ju.mark + (ju.recs.takeWhile (fun r => r.state != .opened)).length

/-- Put an entry on the write list, where it keeps an earlier place, and ask for a write (R152). -/
def writeListAdd (e : WriteEntry) (s : State) : State :=
  askJournal { s with ju := { s.ju with
      writeList := if s.ju.writeList.contains e then s.ju.writeList else s.ju.writeList ++ [e] } }

/-- A record takes the next number and its time from the site clock (R140). -/
def numberRecord (body : RecBody) (s : State) : State :=
  { s with ju := { s.ju with
      counter := s.ju.counter + 1,
      recs := s.ju.recs ++ [{ number := s.ju.counter + 1, time := s.lc.clock, sure := s.lc.sure,
                              body := body, state := .opened, offers := 0, dueAt := none }] } }

/-- A record written closed is numbered and put on the write list (R150). -/
def takeRecord (body : RecBody) (s : State) : State :=
  writeListAdd (.record (s.ju.counter + 1)) (numberRecord body s)

/-- A request for a REFUSAL, DELIVERY or STOCKCHECK record: TAKEN with its number, or none for NO_SLOT
(R150, R162). -/
def requestRecord (body : RecBody) (s : State) : Option Nat × State :=
  if s.warned ∨ s.ju.free = 0 then (none, s) else (some (s.ju.counter + 1), takeRecord body s)

/-! ### The waiting list (R151) -/

/-- The record a waiting request asks for. -/
def WaitReq.body : WaitReq → RecBody
  | .prove p => .prove p
  | .adjust d sup => .adjust d sup
  | .priceBook n p => .priceBook n p

/-- Two requests of one requester. -/
def WaitReq.sameRequester : WaitReq → WaitReq → Bool
  | .prove _, .prove _ => true
  | .adjust _ _, .adjust _ _ => true
  | .priceBook _ _, .priceBook _ _ => true
  | _, _ => false

/-- What the requester does on TAKEN with the number `n` (R135, R186, R169). -/
def requesterTaken (r : WaitReq) (n : Nat) (s : State) : State :=
  match r with
  | .prove _ => { s with prove := { s.prove with step := .record n } }
  | .adjust delta _ => adjustTaken delta s
  | .priceBook _ _ => { s with pbu := { s.pbu with switchState := .writing } }

/-- What the requester does on WAITING (R135, R169). -/
def requesterWaiting (r : WaitReq) (s : State) : State :=
  match r with
  | .prove _ => { s with prove := { s.prove with step := .waiting } }
  | .adjust _ _ => s
  | .priceBook _ _ => { s with pbu := { s.pbu with switchState := .waiting } }

/-- What the requester does on DROPPED: the prove ends with no record (R136), the adjust is not made (R186),
the switch becomes BLOCKED (R170). -/
def requesterDropped (r : WaitReq) (s : State) : State :=
  match r with
  | .prove _ => proveNone s
  | .adjust _ _ => s
  | .priceBook _ _ => { s with pbu := { s.pbu with switchState := .blocked } }

/-- A request joins the waiting list, or replaces its requester's earlier one in place. -/
def joinWaiting (r : WaitReq) (l : List WaitReq) : List WaitReq :=
  if l.any (WaitReq.sameRequester r) then l.map (fun x => if WaitReq.sameRequester r x then r else x)
  else l ++ [r]

/-- A request for a PROVE, ADJUST or PRICEBOOK record: TAKEN, WAITING, or after the warning DROPPED, with
what the requester does on the answer (R151, R162). -/
def requestOrWait (r : WaitReq) (s : State) : State :=
  if s.warned then requesterDropped r s
  else if 0 < s.ju.free then requesterTaken r (s.ju.counter + 1) (takeRecord r.body s)
  else requesterWaiting r { s with ju := { s.ju with waiting := joinWaiting r s.ju.waiting } }

/-- A requester withdraws its waiting request (R151). -/
def withdrawWaiting (r : WaitReq) (s : State) : State :=
  { s with ju := { s.ju with waiting := s.ju.waiting.filter (fun x => !WaitReq.sameRequester r x) } }

/-- JU serves its waiting list from the front while there is a free slot (R151). -/
def serveList : List WaitReq → State → State
  | [], s => s
  | r :: rest, s =>
    if 0 < s.ju.free then
      serveList rest (requesterTaken r (s.ju.counter + 1)
        (takeRecord r.body { s with ju := { s.ju with waiting := rest } }))
    else s

/-- JU serves its waiting list after the free-slot count has risen (R151). -/
def serveWaiting (s : State) : State := serveList s.ju.waiting s

/-! ### DISPENSE records (R145 to R149) -/

/-- A DISPENSE record's accumulation takes a pulse; after the stop notice the overrun too (R147). -/
def DispenseRec.add (d : DispenseRec) (gross std : Nat) : DispenseRec :=
  { d with accGross := satAdd48 d.accGross gross, accStd := satAdd48 d.accStd std,
           accOverrun := if d.stopNotice then satAdd48 d.accOverrun std else d.accOverrun }

/-- Change the DISPENSE fields of a record. -/
def JRec.updDispense (r : JRec) (f : DispenseRec → DispenseRec) : JRec :=
  match r.body with
  | .dispense d => { r with body := .dispense (f d) }
  | _ => r

/-- Change the fields of a hose's open DISPENSE record, wherever it stands. -/
def updOpenDispense (h : Hose) (f : DispenseRec → DispenseRec) (s : State) : State :=
  match s.ju.slots.get h with
  | none => s
  | some (.reserved d) => { s with ju := { s.ju with slots := s.ju.slots.set h (some (.reserved (f d))) } }
  | some (.numbered n) => { s with ju := s.ju.upd n (fun r => r.updDispense f) }

/-- JU opens a DISPENSE record for a hose: a reservation (R145). A refused open is shown as one flag for both of
its causes, which stands until the next power-on (log 44). -/
def openRecord (d : DispenseRec) (s : State) : State :=
  if (s.ju.slots.get d.hose).isSome ∨ s.ju.free = 0 then
    { s with ju := { s.ju with openRefused := true } }
  else { s with ju := { s.ju with slots := s.ju.slots.set d.hose (some (.reserved d)) } }

/-- JU takes a pulse of a billed dispense; the first numbers the record and puts its open write on the
write list (R146, R147). With the counter at its largest value no number can be taken and the record
stays reserved (log 23). -/
def recordIncrement (h : Hose) (gross std : Nat) (s : State) : State :=
  match s.ju.slots.get h with
  | none => s
  | some (.numbered n) => { s with ju := s.ju.upd n (fun r => r.updDispense (fun d => d.add gross std)) }
  | some (.reserved d) =>
    if s.ju.counter = max32 then updOpenDispense h (fun d => d.add gross std) s
    else
      let n := s.ju.counter + 1
      let s1 := numberRecord (.dispense (d.add gross std)) s
      writeListAdd (.record n) { s1 with ju := { s1.ju with slots := s1.ju.slots.set h (some (.numbered n)) } }

/-- JU ends a hose's reservation with no record, and the slot serves the waiting list at once; a record that
has taken a number stays open (R148). A refused withdrawal is shown until the next power-on (log 44), and one
for a hose with no record at all is refused too (log 74). -/
def withdrawRecord (h : Hose) (s : State) : State :=
  match s.ju.slots.get h with
  | some (.reserved _) =>
    serveWaiting { s with ju := { s.ju with slots := s.ju.slots.set h none } }
  | _ => { s with ju := { s.ju with withdrawRefused := true } }

/-- The amount in cents (R172). -/
def amountCents (volumeCl price : Nat) : Nat := (volumeCl * price + 500) / 1000

/-- The close fields set in a DISPENSE record, the amount from its locked price (R149, R172). -/
def DispenseRec.closeWith (d : DispenseRec) (c : CloseFields) : DispenseRec :=
  { d with close := some { c with amount := amountCents c.std d.price } }

/-- JU closes a hose's open record: its close fields, then the write list (R149). -/
def closeRecord (h : Hose) (c : CloseFields) (s : State) : State :=
  match s.ju.slots.get h with
  | some (.numbered n) =>
    writeListAdd (.record n) { s with ju := s.ju.upd n (fun r => r.updDispense (fun d => d.closeWith c)) }
  | _ => s

/-! ### Offering (section 8.6) -/

/-- Offering runs (R154). -/
def offeringRuns (s : State) : Bool :=
  !s.warned && (s.lc.link == .joined || s.lc.link == .isolated)

/-- A candidate of the offer window (R155). -/
def JRec.candidate (mark now : Nat) (r : JRec) : Bool :=
  decide (r.number ≤ mark + 8) && (match r.state with
    | .opened => false
    | .closed => true
    | .offered => (match r.dueAt with | some t => decide (t ≤ now) | none => false))

/-- Whether JU may make an offer: offering runs, there is no offer in queue and no retry wait (R154). -/
def mayOffer (s : State) : Bool := offeringRuns s && s.ju.offer.isNone && s.ju.retryAt.isNone

/-- JU offers a record: LC's answer is for the whole offer (R156). -/
def offerRecord (r : JRec) (s : State) : State :=
  let frames := recordFrames (stationId s) r.number r.time r.sure r.body
  match enqueueOffer s.ju.serial frames s with
  | (true, s1) =>
    let ju := s1.ju.upd r.number (fun x => { x with state := .offered })
    let again := decide (1 ≤ r.offers)
    { s1 with ju := { ju with
        offer := some { number := r.number, serial := s.ju.serial, fragments := frames.length },
        serial := s.ju.serial + 1,
        reoffers := if again then (if ju.reoffers = max16 then 0 else ju.reoffers + 1) else ju.reoffers,
        rollover := ju.rollover || (again && decide (ju.reoffers = max16)) } }
  | (false, s1) => { s1 with ju := { s1.ju with retryAt := some (s1.now + sec 1) } }

/-- JU chooses the lowest candidate and offers it (R154, R155). -/
def chooseOffer (s : State) : State :=
  if mayOffer s then
    match s.ju.recs.find? (JRec.candidate s.ju.mark s.now) with
    | some r => offerRecord r s
    | none => s
  else s

/-- The interval to the next re-offer, by the offer count (R158). -/
def reofferInterval (offers : Nat) : Nat := if offers ≤ 2 then sec 20 else sec 300

/-- A fragment of an offer is SENT; with the last the offer is complete and JU chooses again (R157). -/
def fragmentSent (serial index fragments : Nat) (s : State) : State :=
  match s.ju.offer with
  | some o =>
    if o.serial = serial ∧ index + 1 = fragments then
      let ju := s.ju.upd o.number (fun r =>
        { r with offers := satInc 255 r.offers,
                 dueAt := some (s.now + reofferInterval (satInc 255 r.offers)) })
      chooseOffer { s with ju := { ju with offer := none } }
    else s
  | none => s

/-- An offer is DISCARDED: an OFFERED record returns to CLOSED with its offer count (R157). -/
def offerDiscarded (serial : Nat) (s : State) : State :=
  match s.ju.offer with
  | some o =>
    if o.serial = serial then
      let ju := s.ju.upd o.number (fun r =>
        if r.state = .offered then { r with state := .closed, dueAt := none } else r)
      { s with ju := { ju with offer := none } }
    else s
  | none => s

/-! ### Marks (R159) -/

/-- JU takes a MARK aimed at the part. -/
def takeMark (m : Nat) (s : State) : State :=
  if m ≤ s.ju.mark then s
  else if m ≤ s.ju.highestClosed then
    chooseOffer (writeListAdd .mark (serveWaiting
      { s with ju := { s.ju with recs := s.ju.recs.drop (m - s.ju.mark), mark := m } }))
  else { s with ju := { s.ju with markAhead := satInc max16 s.ju.markAhead } }

/-! ### A frame asked for by another block (R7, R9, R10) -/

/-- LC enqueues a HELLO, DRAW, QUERY, ANSWER or a STATUS with none waiting. With 16 frames waiting the
newest offer makes room for any but a STATUS; JU is told, the frame takes its place, and JU then
chooses again (log 13). -/
def enqueueFrame (f : TxFrame) (s : State) : Bool × State :=
  if lcTakes s f.owner = false then (false, s)
  else if s.lc.queue.length < 16 then (true, placeFrame f s)
  else if f.owner = .status then (false, s)
  else
    match newestOffer s.lc.queue with
    | none => (false, s)
    | some serial => (true, chooseOffer (placeFrame f (offerDiscarded serial (removeOffer serial s))))

/-- LC places a STATUS: over a waiting one, in its place and with its countdown, or like any other (R9). -/
def enqueueStatus (bytes : List Byte) (s : State) : State :=
  if lcTakes s .status = false then s
  else if s.lc.queue.any (fun f => f.owner == .status) then
    { s with lc := { s.lc with
        queue := s.lc.queue.map (fun f => if f.owner = .status then { f with bytes := bytes } else f) } }
  else (enqueueFrame { cls := 3, owner := .status, bytes := bytes } s).2

/-- The body of a STATUS made now, with JU's two figures (R22, R153). -/
def statusBody (s : State) : StatusBody :=
  { startNumber := s.lc.startNumber, stock := BitVec.ofNat 24 (min 16777215 (availableGiven s)),
    cover := BitVec.ofNat 16 (cover s), claimFlag := if s.su.claim then 1 else 0,
    position := BitVec.ofNat 8 (queuePosition s), uncollected := BitVec.ofNat 16 (s.ju.counter - s.ju.mark),
    highestClosed := BitVec.ofNat 32 s.ju.highestClosed }

/-- The bytes of a STATUS made now. -/
def statusBytes (s : State) : List Byte := frameBytes (wholeHeader (stationId s)) (.status (statusBody s))

/-- LC makes a STATUS, for which SU re-evaluates its claim (R22). -/
def makeStatus (s : State) : State :=
  let s1 := reevaluateClaim s
  enqueueStatus (statusBytes s1) { s1 with lc := { s1.lc with lastStatusAt := some s1.now } }

end Sys2Proof.Machine
end

