-- ==== Sys2Proof/Machine/Prices.lean ====
section
/-! DEFINITION. Price books (chapter 9): the two banks, a load by fragments, the switch, and the price of a
dispense. -/

namespace Sys2Proof.Machine

/-! ### The banks (section 9.1) -/

def Banks.get (b : Banks) : BankId → Bank
  | .one => b.one
  | .two => b.two

def Banks.put (b : Banks) (i : BankId) (x : Bank) : Banks :=
  match i with
  | .one => { b with one := x }
  | .two => { b with two := x }

/-- The first bank whose state passes a test. -/
def Banks.which (b : Banks) (p : BankState → Bool) : Option BankId :=
  if p b.one.state then some .one else if p b.two.state then some .two else none

/-- The number of the book in the first bank whose state passes a test. -/
def Banks.number (b : Banks) (p : BankState → Bool) : Option Nat :=
  ((b.which p).bind (fun i => (b.get i).book)).map Book.number

/-- The book grants are priced from. -/
def Banks.activeBook (b : Banks) : Option Book := (b.which (· == .active)).bind (fun i => (b.get i).book)

/-- The entries in use of a book (R163). -/
def Book.used (b : Book) : List PriceEntry := b.entries.take b.count

/-- An entry's price is in range (R168). -/
def entryPriceOk (e : PriceEntry) : Bool := decide (e.price.toNat ≤ 99999)

/-- An entry's cost-centre bounds are in range (R168). -/
def entryBoundsOk (e : PriceEntry) : Bool := decide (e.low.toNat ≤ 9999) && decide (e.high.toNat ≤ 9999)

/-- The range check of R168; entry 0's cost-centre bounds are not read (R163, log 35). -/
def Book.inRange (b : Book) : Bool :=
  b.used.all entryPriceOk && (b.used.drop 1).all entryBoundsOk

/-- The CRC of a book matches it (R168, R211). -/
def Book.crcOk (b : Book) : Bool := b.crc == checkValue (bookBytes b.number b.effective b.count b.used)

/-- A book passes its own check (R164). -/
def Book.checks (b : Book) : Bool :=
  b.crcOk && decide (1 ≤ b.count) && decide (b.count ≤ 16) && b.inRange

/-- A bank as it is settled at power-on (R164). -/
def Bank.settle (b : Bank) : Bank :=
  match b.state, b.book with
  | .pending, some k | .active, some k | .standby, some k => if k.checks then b else Bank.empty
  | _, _ => Bank.empty

/-- Replace a bank and ask for the bank write (R164). -/
def setBank (i : BankId) (x : Bank) (s : State) : State :=
  askBanks { s with pbu := { s.pbu with banks := s.pbu.banks.put i x } }

/-! ### The switch (section 9.3) -/

/-- The PENDING book, when the switch test passes (R169). -/
def switchDue (s : State) : Option Book :=
  if s.pbu.switchState = .idle ∧ s.lc.sure then
    match (s.pbu.banks.which (· == .pending)).bind (fun i => (s.pbu.banks.get i).book) with
    | some k => if k.effective ≤ s.lc.clock then some k else none
    | none => none
  else none

/-- PBU makes the switch test (R169). -/
def switchTest (s : State) : State :=
  match switchDue s with
  | some k => requestOrWait (.priceBook k.number ((s.pbu.banks.number (· == .active)).getD 0)) s
  | none => s

/-- The states of the banks after a switch (R170). -/
def Bank.switched (b : Bank) : Bank :=
  match b.state with
  | .pending => { b with state := .active }
  | .active => { b with state := .standby }
  | _ => b

/-- JU reports the end of the PRICEBOOK record's write (R170). -/
def switchEnd (good : Bool) (s : State) : State :=
  if good then
    askBanks { s with pbu := { s.pbu with
      banks := ⟨s.pbu.banks.one.switched, s.pbu.banks.two.switched⟩, switchState := .idle } }
  else { s with pbu := { s.pbu with switchState := .blocked } }

/-! ### Loading (section 9.2) -/

/-- A bank that is receiving or holding the next book. -/
def BankState.holdsNext : BankState → Bool
  | .pending | .loading => true
  | _ => false

/-- The target bank of an accepted book (R166); with neither bank ACTIVE and both EMPTY it is bank 1 (log 50). -/
def Banks.target (b : Banks) : BankId :=
  match b.which BankState.holdsNext with
  | some i => i
  | none =>
    match b.which (· == .active) with
    | some .one => .two
    | some .two => .one
    | none => (b.which (· == .empty)).getD .one

/-- The three tests of a begin fragment (R166). -/
def beginAccepted (s : State) (number count : Nat) : Bool :=
  decide (number ≠ 0) && decide (1 ≤ count) && decide (count ≤ 16)
    && s.pbu.switchState != .writing
    && (match s.pbu.banks.number (· == .active) with | some n => decide (n < number) | none => true)
    && (match s.pbu.banks.number BankState.holdsNext with | some n => decide (n ≤ number) | none => true)

/-- The replaced PENDING book's waiting request is withdrawn (R166). -/
def withdrawSwitch (s : State) : State :=
  if s.pbu.switchState = .waiting then
    withdrawWaiting (.priceBook 0 0) { s with pbu := { s.pbu with switchState := .idle } }
  else s

/-- PBU judges a begin fragment (R166). The LOADING bank's book holds no entries and no CRC yet. -/
def bookBegin (number effective count : Nat) (s : State) : State :=
  if beginAccepted s number count then
    let i := s.pbu.banks.target
    let s1 := withdrawSwitch s
    setBank i { state := .loading, book := some { number := number, effective := effective, count := count,
                                                  entries := [], crc := 0 } }
      { s1 with pbu := { s1.pbu with load := some { target := i, received := 0, entries := [] } } }
  else { s with pbu := { s.pbu with ignoredBook := satInc max16 s.pbu.ignoredBook } }

/-- An entry fragment taken into the load (R167). Nine counts as any number past eight. -/
def Load.add (l : Load) (e f : PriceEntry) : Load :=
  { l with received := satInc 9 l.received,
           entries := if l.received < 8 then l.entries ++ [e, f] else l.entries }

/-- PBU takes an entry fragment (R167). -/
def bookEntries (e f : PriceEntry) (s : State) : State :=
  { s with pbu := { s.pbu with load := s.pbu.load.map (fun l => l.add e f) } }

/-- The book of a load as received, with the end fragment's CRC. -/
def loadedBook (bank : Bank) (l : Load) (crc : Half) : Option Book :=
  bank.book.map (fun k => { k with entries := l.entries.take k.count, crc := crc })

/-- The three checks of R168 on the book as received. -/
def Book.complete (k : Book) (received : Nat) : Bool :=
  decide (received = (k.count + 1) / 2) && k.crcOk && k.inRange

/-- A load ends without a book: the target is EMPTY and BAD_BOOK counts (R165, R168). -/
def loadFails (i : BankId) (s : State) : State :=
  setBank i Bank.empty { s with pbu := { s.pbu with load := none, badBook := satInc max16 s.pbu.badBook } }

/-- PBU judges the book on the end fragment (R168); one that passes is put to the switch test (R169). -/
def bookEnd (crc : Half) (s : State) : State :=
  match s.pbu.load with
  | none => s
  | some l =>
    match loadedBook (s.pbu.banks.get l.target) l crc with
    | some k =>
      if k.complete l.received then
        switchTest (setBank l.target { state := .pending, book := some k }
          { s with pbu := { s.pbu with load := none } })
      else loadFails l.target s
    | none => loadFails l.target s

/-- LC reports that a reassembly has been abandoned (R165). -/
def bookAbandoned (s : State) : State :=
  match s.pbu.load with
  | none => s
  | some l => loadFails l.target s

/-! ### The price of a dispense (section 9.4) -/

/-- An entry contains a cost centre (R171). -/
def entryContains (e : PriceEntry) (costCentre : Nat) : Bool :=
  decide (e.low.toNat ≤ costCentre) && decide (costCentre ≤ e.high.toNat)

/-- The price of a cost centre in a book (R171). -/
def Book.priceOf (k : Book) (costCentre : Nat) : Nat :=
  match (k.used.drop 1).find? (fun e => entryContains e costCentre) with
  | some e => e.price.toNat
  | none => ((k.used.head?).map (fun e => e.price.toNat)).getD 0

/-- What PBU hands AU at grant: price, book number and the unpriced flag (R171). -/
def priceLookup (b : Banks) (costCentre : Nat) : Nat × Nat × Bool :=
  match b.activeBook with
  | some k => (k.priceOf costCentre, k.number, false)
  | none => (0, 0, true)

end Sys2Proof.Machine
end

