-- ==== Sys2Proof/Machine/MachineTable.lean ====
section
/-! DEFINITION. The Machine Table (chapter 3): entries and eviction, draw lists, the allowance, busy marks,
own closes, and the query waits. -/

namespace Sys2Proof.Machine

/-! ### Draw lists (section 3.2) -/

/-- The window of an entry in seconds: W hours, or 24 h without a fixed part (R45, R48). -/
def Entry.window (e : Entry) : Nat :=
  match e.fixed with
  | some f => f.window * 3600
  | none => 86400

/-- Ageing: draws earlier than the clock less the window are dropped (R48). -/
def ageDraws (clock window : Nat) (l : List Draw) : List Draw :=
  l.filter (fun d => decide (clock ≤ d.time + window))

/-- An entry with its list aged. -/
def Entry.aged (e : Entry) (clock : Nat) : Entry := { e with draws := ageDraws clock e.window e.draws }

/-- Newer in the order of R46: later time, then higher bowser id. -/
def Draw.newer (a b : Draw) : Bool :=
  decide (b.time < a.time) || (decide (a.time = b.time) && decide (b.bowser < a.bowser))

/-- A draw placed in the order of R46. -/
def insertDraw (d : Draw) : List Draw → List Draw
  | [] => [d]
  | x :: rest => if d.newer x then d :: x :: rest else x :: insertDraw d rest

/-- The same identity: bowser id and time (section 3.2). -/
def Draw.same (a b : Draw) : Bool := decide (a.bowser = b.bowser) && decide (a.time = b.time)

/-- A merge offers one draw to one entry (R47). -/
def Entry.merge (e : Entry) (clock : Nat) (d : Draw) : Entry :=
  let aged := e.aged clock
  if d.volume = 0 ∨ d.time + e.window < clock ∨ aged.draws.any (Draw.same d) then aged
  else { aged with draws := (insertDraw d aged.draws).take 8 }

/-- Several draws merged one at a time in the order carried (R47). -/
def Entry.mergeAll (e : Entry) (clock : Nat) (ds : List Draw) : Entry :=
  ds.foldl (fun acc d => acc.merge clock d) e

/-! ### Entries (section 3.1) -/

/-- The entry in use of a machine. -/
def Mt.find (mt : Mt) (m : Nat) : Option Entry := mt.entries.find? (fun e => e.machine == m)

/-- Change the entry of a machine, if there is one. -/
def Mt.upd (mt : Mt) (m : Nat) (f : Entry → Entry) : Mt :=
  { mt with entries := mt.entries.map (fun e => if e.machine = m then f e else e) }

/-- The entry to evict: busy hose none, oldest last-use, then lowest machine id (R43). -/
def evictionChoice : List Entry → Option Entry
  | [] => none
  | e :: rest =>
    match evictionChoice rest with
    | none => if e.busy = none then some e else none
    | some best =>
      if e.busy = none ∧ (e.lastUse < best.lastUse ∨ (e.lastUse = best.lastUse ∧ e.machine ≤ best.machine))
      then some e else some best

/-- A new entry placed by machine id. -/
def insertEntry (e : Entry) : List Entry → List Entry
  | [] => [e]
  | x :: rest => if e.machine < x.machine then e :: x :: rest else x :: insertEntry e rest

/-- MT evicts an entry when none of the 48 is free (R43). -/
def Mt.makeRoom (mt : Mt) : Mt :=
  if mt.entries.length < 48 then mt
  else
    match evictionChoice mt.entries with
    | none => mt
    | some e => { mt with entries := mt.entries.filter (fun x => x.machine != e.machine),
                          evictions := satInc max16 mt.evictions }

/-- The machine's entry is found or created (R43). At most two entries are busy, so one can always be
evicted; were all 48 busy, none would be created. -/
def Mt.ensure (mt : Mt) (m clock : Nat) : Mt :=
  let r := mt.makeRoom
  if (mt.find m).isSome ∨ 48 ≤ r.entries.length then mt
  else
    { r with entries := insertEntry { machine := m, fixed := none, draws := [], fresh := none,
                                      lastUse := clock, busy := none } r.entries }

/-- The machine's entry is found or created, then changed. -/
def Mt.touch (mt : Mt) (m clock : Nat) (f : Entry → Entry) : Mt := (mt.ensure m clock).upd m f

/-- An entry is fresh: its fresh time is present and the clock is no more than 600 s past it (R54). -/
def Entry.isFresh (e : Entry) (clock : Nat) : Bool :=
  match e.fresh with
  | some t => decide (clock ≤ t + 600)
  | none => false

/-! ### Identification, release, own close (section 3.3) -/

/-- MT takes an identification (R49). -/
def identify (h : Hose) (f : FixedPart) (hist : History) (s : State) : State :=
  { s with mt := s.mt.touch f.machine s.lc.clock (fun e =>
      let e1 := { e with fixed := some f, lastUse := s.lc.clock }
      let e2 := if hist.valid then e1.mergeAll s.lc.clock hist.entries else e1
      if e2.busy = none then { e2 with busy := some h } else e2) }

/-- MT's answer to an identification, read from the entry it left (R49). -/
def identAnswer (h : Hose) (m : Nat) (s : State) : Ident :=
  match s.mt.find m with
  | some e => if e.busy = some h.other then .otherHose else .held
  | none => .held

/-- MT's freshness answer (R49, R54). -/
def freshAnswer (m : Nat) (s : State) : Bool :=
  match s.mt.find m with
  | some e => e.isFresh s.lc.clock
  | none => false

/-- A release (R50). -/
def release (h : Hose) (m : Nat) (s : State) : State :=
  { s with mt := s.mt.upd m (fun e => if e.busy = some h then { e with busy := none } else e) }

/-- A DRAW frame of the part (R51, R212). -/
def drawFrame (station m : Nat) (d : Draw) : TxFrame :=
  { cls := 2, owner := .draw,
    bytes := frameBytes (wholeHeader station) (.draw (BitVec.ofNat 24 m) d.toWire) }

/-- MT takes an own close: last use, merge, a DRAW frame for a volume above 0, and the busy hose (R51). -/
def ownClose (h : Hose) (m : Nat) (d : Draw) (s : State) : State :=
  let s1 := { s with mt := s.mt.touch m s.lc.clock (fun e =>
    ({ e with lastUse := s.lc.clock } : Entry).merge s.lc.clock d) }
  let s2 := if 0 < d.volume then (enqueueFrame (drawFrame (stationId s1) m d) s1).2 else s1
  release h m s2

/-! ### The allowance (section 3.6) -/

/-- The leak in cL per minute (R55). -/
def leakPerMinute (f : FixedPart) : Nat := max 1 (f.allowance * 100 / (f.window * 60))

/-- The replay from a level at a time through later draws, oldest first, to the clock (R55). -/
def replayFrom (r clock : Nat) : Nat → Nat → List Draw → Nat
  | level, time, [] => if clock < time then level else level - (clock - time) / 60 * r
  | level, time, d :: rest => replayFrom r clock (level - (d.time - time) / 60 * r + d.volume) d.time rest

/-- The bucket level of a list aged and newest first (R55). -/
def bucketLevel (r clock : Nat) (newestFirst : List Draw) : Nat :=
  match newestFirst.reverse with
  | [] => 0
  | d :: rest => replayFrom r clock d.volume d.time rest

/-- The replay of an entry's aged list (R55, R56); an entry AU asks about has a fixed part (R45). -/
def Entry.replay (e : Entry) (clock : Nat) : AllowanceAnswer :=
  let l := (e.aged clock).draws
  match e.fixed with
  | some f =>
    let level := bucketLevel (leakPerMinute f) clock l
    { remaining := f.allowance * 100 - level, level := level, replayed := l.length }
  | none => { remaining := 0, level := 0, replayed := l.length }

/-- MT's answer when AU asks for the remaining allowance of a machine (R56). -/
def remainingAllowance (m : Nat) (s : State) : AllowanceAnswer :=
  match s.mt.find m with
  | some e => e.replay s.lc.clock
  | none => { remaining := 0, level := 0, replayed := 0 }

/-- The replay ages the list (R48, R55). -/
def ageEntry (m : Nat) (s : State) : State :=
  { s with mt := s.mt.upd m (fun e => e.aged s.lc.clock) }

/-! ### Query waits (section 3.7) -/

/-- Change a hose's query wait. -/
def setWait (h : Hose) (w : QueryWait) (s : State) : State :=
  { s with mt := { s.mt with wait := s.mt.wait.set h w } }

/-- A query wait is cancelled: NONE, with no report (R61). -/
def cancelWait (h : Hose) (s : State) : State := setWait h .none s

/-- The machine a running wait asks about. -/
def QueryWait.machine? : QueryWait → Option Nat
  | .none => Option.none
  | .sending m _ _ => some m
  | .waiting m _ _ => some m

/-- A wait's end on the table: the fresh time when the link is JOINED, and the wait NONE (R60). -/
def endWaitTable (h : Hose) (m : Nat) (s : State) : State :=
  setWait h .none (if s.lc.link = .joined then
    { s with mt := s.mt.upd m (fun e => { e with fresh := some s.lc.clock }) } else s)

/-- A QUERY frame of the part (R58, R212). -/
def queryFrame (station : Nat) (h : Hose) (id m window : Nat) : TxFrame :=
  { cls := 2, owner := .query h id,
    bytes := frameBytes (wholeHeader station) (.query (BitVec.ofNat 24 m) (BitVec.ofNat 8 window)) }

/-- MT's answer to a query request: NOT_JOINED, STARTED, or STARTED with the wait ended as soon as it
began (R58, R72). -/
inductive QueryAnswer where
  | notJoined
  | started
  | ended
  deriving DecidableEq, Repr

/-- The window a QUERY for a machine carries: that of its entry's fixed part, 24 h without one (R45, R58). -/
def queryWindow (m : Nat) (s : State) : Nat :=
  (((s.mt.find m).bind Entry.fixed).map FixedPart.window).getD 24

/-- A query request on a query wait NONE (R58). -/
def startQuery (h : Hose) (m : Nat) (s : State) : QueryAnswer × State :=
  if s.lc.link ≠ .joined then (.notJoined, s)
  else
    let id := s.mt.serial
    let s1 := { s with mt := { s.mt with serial := id + 1 } }
    match enqueueFrame (queryFrame (stationId s) h id m (queryWindow m s)) s1 with
    | (true, s2) => (.started, setWait h (.sending m id s2.now) s2)
    | (false, s2) => (.ended, endWaitTable h m s2)

/-- A query request (R58): joined to a wait running for the same machine; one for another machine is
cancelled first. -/
def queryRequest (h : Hose) (m : Nat) (s : State) : QueryAnswer × State :=
  match (s.mt.wait.get h).machine? with
  | none => startQuery h m s
  | some m' => if m' = m then (.started, s) else startQuery h m (cancelWait h s)

/-- The QUERY that belongs to a hose's wait is SENT: the answer time begins (R59). -/
def querySent (h : Hose) (id : Nat) (s : State) : State :=
  match s.mt.wait.get h with
  | .sending m id' _ => if id' = id then setWait h (.waiting m id s.now) s else s
  | _ => s

/-! ### Frames from the channel -/

/-- A heard DRAW (R52). -/
def heardDraw (source m : Nat) (w : WireDraw) (s : State) : State :=
  let d := Draw.ofWire w
  if m = 0 ∨ d.bowser ≠ source then s
  else
    let freshen : Entry → Entry := fun e => { e with fresh := some s.lc.clock }
    { s with mt := s.mt.touch m s.lc.clock (fun e => freshen (e.merge s.lc.clock d)) }

/-- A heard ANSWER (R53). -/
def heardAnswer (source m : Nat) (ws : List WireDraw) (s : State) : State :=
  let ds := ws.map Draw.ofWire
  if m = 0 ∨ ds.any (fun d => d.bowser != source) then s
  else { s with mt := s.mt.touch m s.lc.clock (fun e => e.mergeAll s.lc.clock ds) }

/-- The newest one or two own draws within a QUERY's window (R62). -/
def ownDraws (station clock window : Nat) (l : List Draw) : List Draw :=
  (l.filter (fun d => decide (d.bowser = station) && decide (clock ≤ d.time + window * 3600))).take 2

/-- An ANSWER frame of the part (R62, R212). -/
def answerFrame (station m : Nat) (own : List Draw) : TxFrame :=
  { cls := 1, owner := .answer,
    bytes := frameBytes (wholeHeader station) (.answer (BitVec.ofNat 24 m) (own.map Draw.toWire)) }

/-- A heard QUERY (R62): answered with the part's own draws of the machine; it changes nothing in the entry
but that the list is aged (R48). -/
def heardQuery (m window : Nat) (s : State) : State :=
  if m = 0 ∨ window = 0 ∨ 168 < window then s
  else
    match s.mt.find m with
    | none => s
    | some e =>
      let own := match s.cfg.params.station with
        | some id => ownDraws id s.lc.clock window (e.aged s.lc.clock).draws
        | none => []
      let s1 := ageEntry m s
      if own.isEmpty then s1
      else (enqueueFrame (answerFrame (stationId s) m own) s1).2

end Sys2Proof.Machine
end

