-- ==== Sys2Proof/Machine/Metering.lean ====
section
/-! DEFINITION. The arithmetic of a Meter Unit (chapter 5): the judgement of an edge, the per-pulse
computation, flow rate, band and temperature at a window end, and the open and close of its dispense. -/

namespace Sys2Proof.Machine

/-- What an edge of channel A is judged (R89). -/
inductive Edge where
  | forward
  | reverse
  | mismatch
  deriving DecidableEq, Repr

/-- The judgement of a rising edge of A by the level of B and the two counts (R89). -/
def judgeEdge (mu : Mu) (levelB : Bool) : Edge :=
  if mu.edgeSeen = false ∨ (mu.rises = 1 ∧ mu.falls = 1) then (if levelB then .reverse else .forward)
  else .mismatch

/-- The tracker after a rising edge of A (R89). -/
def Mu.afterEdge (mu : Mu) : Mu := { mu with rises := 0, falls := 0, edgeSeen := true }

/-- N_g of R98. -/
def grossSum (wp factor carry : Nat) : Nat := wp * factor + carry

/-- The gross increment and the gross carry after it (R98). -/
def grossStep (wp factor carry : Nat) : Nat × Nat :=
  (grossSum wp factor carry / 100000, grossSum wp factor carry % 100000)

/-- N_s of R99; the compensation is positive across its ranges (R97). -/
def stdSum (gross : Nat) (comp : Int) (carry : Nat) : Nat := gross * comp.toNat + carry

/-- The standard increment and the standard carry after it (R99). -/
def stdStep (gross : Nat) (comp : Int) (carry : Nat) : Nat × Nat :=
  (stdSum gross comp carry / 10000000, stdSum gross comp carry % 10000000)

/-- A metered pulse: its gross and standard increments and the dispense after it (R90, R98, R99, R101). A band's
pulse count stops at the top of its range (log 45). -/
def MuDispense.meter (d : MuDispense) (wp alpha : Nat) : Nat × Nat × MuDispense :=
  let g := grossStep wp (d.factors.get d.band) d.grossCarry
  let t := stdStep g.1 (c10 alpha d.theta) d.stdCarry
  (g.1, t.1,
    { d with grossCarry := g.2, stdCarry := t.2, gross := satAdd48 d.gross g.1,
             std := satAdd48 d.std t.1,
             pulses := d.pulses.set d.band (satInc 16777215 (d.pulses.get d.band)) })

/-- A window's flow rate in tenths of L/min (R92). -/
def flowRate (count wp windowN : Nat) : Nat := count * wp * 6 / (10 * (windowN * 100))

/-- The first band whose upper limit is at least the rate; none above band 4's (R93). -/
def bandFor (limits : Quad Nat) (rate : Nat) : Option Nat :=
  if rate ≤ limits.b1 then some 1 else if rate ≤ limits.b2 then some 2
  else if rate ≤ limits.b3 then some 3 else if rate ≤ limits.b4 then some 4 else none

/-- A good temperature sample (R95). -/
def goodSample : TempSample → Option Int
  | .fault => none
  | .reading t => if -400 ≤ t ∧ t ≤ 700 then some t else none

/-- The band and the overspeed counts at a window end (R93). -/
def MuDispense.chooseBand (d : MuDispense) (limits : Quad Nat) (rate : Nat) : MuDispense :=
  match bandFor limits rate with
  | some b => { d with band := b, consecutive := 0 }
  | none => { d with band := 4, overspeed := satInc max16 d.overspeed, consecutive := satInc 3 d.consecutive }

/-- The temperature in use at a window end (R96). -/
def MuDispense.sampled (d : MuDispense) (sample : Option Int) : MuDispense :=
  match sample with
  | some t => { d with theta := t }
  | none => { d with held := true }

/-- Whether FORCED_SLOW is to be reported: the third consecutive overspeed window, once in a dispense (R93). -/
def MuDispense.forcedSlowDue (d : MuDispense) : Bool := decide (d.consecutive = 3) && !d.forcedSlow

/-- The dispense as an open sets it (R87, R96). -/
def Mu.opening (mu : Mu) (isProve : Bool) : MuDispense :=
  { isProve := isProve, factors := mu.table, band := 1, theta := mu.lastTemp.getD 150,
    held := mu.lastTemp.isNone, grossCarry := 0, stdCarry := 0, gross := 0, std := 0, pulses := Quad.all 0,
    mismatches := 0, reverses := 0, overspeed := 0, consecutive := 0, forcedSlow := false,
    faultReported := false }

/-- The close summary of a dispense (R102). -/
def MuDispense.summary (d : MuDispense) : Summary :=
  { gross := roundClNat d.gross, std := roundClNat d.std, theta := d.theta, held := d.held,
    overspeed := d.overspeed, pulses := d.pulses }

/-- The close adjustment in µL (R102). -/
def MuDispense.adjustment (d : MuDispense) : Int := (roundClNat d.std : Int) * 10000 - d.std

/-- The MU opens a dispense, or refuses when one is open (R88); a refused open is shown until the next power-on
(log 44). -/
def muOpen (h : Hose) (isProve : Bool) (s : State) : State :=
  s.updMu h (fun mu =>
    match mu.dispense with
    | none => { mu with dispense := some (mu.opening isProve) }
    | some _ => { mu with openRefused := true })

/-- The MU closes its dispense: the summary, and for a billed dispense the close adjustment to SU, noted in
the open record for R203's fall (R102). A refused close is shown until the next power-on (log 44). -/
def muClose (h : Hose) (s : State) : Option Summary × State :=
  match (s.mu.get h).dispense with
  | none => (none, s.updMu h (fun mu => { mu with closeRefused := true }))
  | some d =>
    let s1 := s.updMu h (fun mu => { mu with dispense := none })
    if d.isProve then (some d.summary, s1)
    else (some d.summary,
      suAdjustment d.adjustment (updOpenDispense h (fun r => { r with adjustment := d.adjustment }) s1))

/-- The live standard total of a hose's dispense (R101). -/
def stdTotal (s : State) (h : Hose) : Nat :=
  match (s.mu.get h).dispense with
  | some d => d.std
  | none => 0

/-- The live gross total of a hose's dispense. -/
def grossTotal (s : State) (h : Hose) : Nat :=
  match (s.mu.get h).dispense with
  | some d => d.gross
  | none => 0

end Sys2Proof.Machine
end

