-- ==== Sys2Proof/Machine/Tags.lean ====
section
/-! DEFINITION. Tag transactions as they are asked for and as they end at the TIU (chapter 2): the commands
to the reader head, the new history of a WRITE-HISTORY, and what a completion code does to the TIU. -/

namespace Sys2Proof.Machine

/-- The kinds of transaction a block asks for (R30). -/
inductive TagAsk where
  | read
  | writeHistory (machine : Nat) (d : Draw)
  | probe
  deriving DecidableEq, Repr

/-- The number after a command's: 1 to 255 in turn (R29). -/
def nextCommand (n : Nat) : Nat := if n < 255 then n + 1 else 1

/-- The TIU sends the head a command (R29). -/
def Tiu.send (t : Tiu) (op : HeadOp) (beginMark endMark : Bool) (now : Nat) : Tiu :=
  { t with number := nextCommand t.number,
           waiting := some { number := nextCommand t.number, op := op, beginMark := beginMark,
                             endMark := endMark, sentAt := now } }

/-- The new history of a WRITE-HISTORY for machine `m` with draw `d` (R33). -/
def newHistory (m : Nat) (d : Draw) (record : Option TagRecord) : History :=
  let old := match record with
    | some r => if r.fixed.machine = m ∧ r.history.valid then some r.history else none
    | none => none
  let oldEntries := match old with | some h => h.entries | none => []
  let oldGeneration := match old with | some h => h.generation | none => 0
  { valid := true, machine := m, idCheck := m % 256, generation := (oldGeneration + 1) % 256,
    entries := (d :: oldEntries).take 3 }

/-- The first command of a transaction, with the begin mark (R31, R34, R35). -/
def Tiu.start (t : Tiu) (who : TagRequester) (ask : TagAsk) (now : Nat) : Tiu :=
  let t1 := { t with requester := some who, code := none }
  match ask with
  | .read => { t1.send (.readFragment 0) true false now with busy := .read0 }
  | .writeHistory m d =>
    let hist := newHistory m d t.record
    { t1.send (.writeFragment 1 m (historyFragment1 hist)) true false now with busy := .write1 m hist }
  | .probe => { t1.send .testPresence true true now with busy := .probing }

/-- A block asks a TIU for a transaction: taken when it is IDLE before the warning, otherwise BUSY (R30). -/
def tagRequest (h : Hose) (who : TagRequester) (ask : TagAsk) (s : State) : Bool × State :=
  if s.warned ∨ (s.tiu.get h).busy ≠ .idle then (false, s)
  else (true, s.updTiu h (fun t => t.start who ask s.now))

/-- The presence indication a completion code sets (R35). -/
def presenceAfter : Completion → Bool
  | .readDone | .writeDone | .probeDone => true
  | .tagError .checkFail => true
  | .tagError .noTag | .tagError .timeout | .tagError .changed => false

/-- The miss count after a transaction of a kind ends with a code (R35). -/
def missesAfter (isProbe : Bool) (code : Completion) (n : Nat) : Nat :=
  match code with
  | .readDone | .probeDone => 0
  | .tagError .noTag | .tagError .timeout => if isProbe then satInc 255 n else n
  | .tagError .checkFail | .tagError .changed | .writeDone => n

/-- A transaction ends with a code: the TIU is IDLE (R30, R35, R36). -/
def Tiu.finish (t : Tiu) (code : Completion) : Tiu :=
  { t with busy := .idle, requester := none, waiting := none, code := some code,
           present := presenceAfter code,
           misses := missesAfter (decide (t.busy = .probing)) code t.misses }

/-- How both fragments of a READ after a good fragment 0 are judged (R32). -/
def readCode (fixed : FixedPart) (hist : History) : Completion :=
  if hist.valid = false then .readDone
  else if hist.machine ≠ fixed.machine ∨ hist.idCheck ≠ fixed.machine % 256 then .tagError .changed
  else .readDone

end Sys2Proof.Machine
end

