-- ==== Sys2Proof/Machine/Hose.lean ====
section
/-! DEFINITION. The Hose Controllers and the Pump Controller (chapter 6): the pump and its start budget,
stages and compares, the ends of a dispense, the close sequence, and what follows it. -/

namespace Sys2Proof.Machine

/-! ### The outputs (R105, R124) -/

/-- The valve outputs that a stage drives (R105). -/
def Stage.valves : Stage → Valves
  | .closed => { slow := false, full := false }
  | .slow => { slow := true, full := false }
  | .full => { slow := true, full := true }

/-- A hose's valve outputs (R105). -/
def valveOutputs (s : State) (h : Hose) : Valves := (s.hc.get h).stage.valves

/-- The pump-run output: active in RUNNING and RUN_ON (R124). -/
def pumpRun (s : State) : Bool := decide (s.pump.state ≠ .stopped)

/-! ### What the hose needs and shows -/

/-- A hose needs the pump (R124): AUTHORISED with pump joined, FLOWING, STOPPING, or in its prove's run. -/
def hoseNeeds (s : State) (h : Hose) : Bool :=
  match (s.hc.get h).state with
  | .authorised => (s.hc.get h).joined
  | .flowing | .stopping => true
  | .proving => decide (s.prove.phase = .run)
  | _ => false

/-- IDLE with the nozzle in its holster, HANG_WAIT with it out. -/
def restState (nozzleOut : Bool) : HoseState := if nozzleOut then .hangWait else .idle

/-- What the display record shows stands until the nozzle is hung, so with the nozzle in nothing stands. -/
def Hc.show (hc : Hc) (x : Shown) : Hc := { hc with shown := if hc.nozzleOut then x else .nothing }

/-- The dispense values of R105 are discarded and every timer stops; "tag not seen", which can still stand from the
flow, goes with them (log 55). -/
def Hc.discard (hc : Hc) : Hc :=
  { hc with stage := .closed, joined := false, limit := none, binding := none, forcedSlow := false,
            machine := none, endCause := none, hungSinceEnd := false, overrun := 0, closeTime := none,
            summary := none, tagOutcome := none, noFlowAt := none, idleAt := none, drainAt := none,
            drainLimitAt := none, probeAt := none, tagStep := .none, tagNotSeen := false }

/-- The hose is finished: IDLE or HANG_WAIT by its nozzle's position. -/
def Hc.rest (hc : Hc) : Hc := { hc.discard with state := restState hc.nozzleOut }

/-! ### Stage and limit (R109, R111, R112) -/

/-- Whether a total in µL is within the slow-down volume of the limit (R111). -/
def slowNow (limitCl slowCl total : Nat) : Bool := decide (limitCl * 10000 ≤ total + slowCl * 10000)

/-- The total the hose's compares are made on: gross for a prove (R131), standard otherwise. -/
def compareTotal (s : State) (h : Hose) : Nat :=
  if (s.hc.get h).state = .proving then grossTotal s h else stdTotal s h

/-- The hose's configured slow-down volume in cL. -/
def slowDownOf (s : State) (h : Hose) : Nat := (s.cfg.params.hose.get h).slowDown

/-- The stage opens (R109). -/
def openStage (h : Hose) (s : State) : State :=
  let slow := slowNow ((s.hc.get h).limit.getD 0) (slowDownOf s h) (compareTotal s h)
  s.updHc h (fun hc => { hc with stage := if hc.forcedSlow ∨ slow then .slow else .full })

/-- The stage compare moves FULL to SLOW (R111). -/
def stageCompare (h : Hose) (s : State) : State :=
  let slow := slowNow ((s.hc.get h).limit.getD 0) (slowDownOf s h) (compareTotal s h)
  s.updHc h (fun hc => if hc.stage = .full ∧ slow then { hc with stage := .slow } else hc)

/-- The limit compare (R112, R131). -/
def limitReached (h : Hose) (s : State) : Bool :=
  decide ((s.hc.get h).limit.getD 0 * 10000 ≤ compareTotal s h)

/-- The MU reports FORCED_SLOW (R111). -/
def forcedSlow (h : Hose) (s : State) : State :=
  s.updHc h (fun hc => { hc with forcedSlow := true, stage := if hc.stage = .full then .slow else hc.stage })

/-! ### The pump (R124 to R126) -/

/-- A hose joins the pump (R109, R131). -/
def joinPump (h : Hose) (s : State) : State :=
  let s1 := s.updHc h (fun hc =>
    if hc.state = .proving then { hc with joined := true, idleAt := some (s.now + sec 60) }
    else { hc with joined := true, noFlowAt := some (s.now + sec 60) })
  openStage h s1

/-- Every waiting hose joins. -/
def joinHeld (s : State) : State :=
  let w := s.pump.waiting
  let s1 := { s with pump := { s.pump with waiting := Two.both false } }
  let s2 := if w.a then joinPump .a s1 else s1
  if w.b then joinPump .b s2 else s2

/-- The PC starts the pump (R125): the level goes up, and the fall timer starts with the first. -/
def startPump (s : State) : State :=
  { s with pump := { s.pump with
      state := .running, level := s.pump.level + 1,
      fallAt := if s.pump.level = 0 then some (s.now + sec 100) else s.pump.fallAt } }

/-- A hose asks the PC for the pump (R125); after the warning it is refused (R127). -/
def pumpRequest (h : Hose) (s : State) : State :=
  if s.warned then s
  else
    match s.pump.state with
    | .running => joinHeld (joinPump h s)
    | .runOn =>
      joinHeld (joinPump h { s with pump := { s.pump with state := .running, runOnAt := none } })
    | .stopped =>
      if s.pump.level < 6 then joinHeld (joinPump h (startPump s))
      else { s with pump := { s.pump with waiting := s.pump.waiting.set h true } }

/-- A hose leaves the waiting hoses (R125). -/
def leaveWaiting (h : Hose) (s : State) : State :=
  { s with pump := { s.pump with waiting := s.pump.waiting.set h false } }

/-- With no hose needing the pump, RUNNING becomes RUN_ON (R124). -/
def pumpSettle (s : State) : State :=
  if s.pump.state = .running ∧ hoseNeeds s .a = false ∧ hoseNeeds s .b = false then
    { s with pump := { s.pump with state := .runOn, runOnAt := some (s.now + sec 5) } }
  else s

/-- The budget level falls at its due time (R126); a hose that waits is then served. -/
def budgetFalls (due : Nat) (s : State) : State :=
  let level := s.pump.level - 1
  let s1 := { s with pump := { s.pump with
    level := level, fallAt := if level = 0 then none else some (due + sec 100) } }
  if s1.pump.state = .stopped ∧ level < 6 ∧ (s1.pump.waiting.a ∨ s1.pump.waiting.b) ∧ s1.warned = false
  then joinHeld (startPump s1) else s1

/-! ### The session that leaves with the hose (R77) -/

/-- The session on a hose returns to NONE, its fields none. -/
def sessionNone (h : Hose) (s : State) : State := s.updSession h (fun x => Session.empty x.serial)

/-! ### The close sequence (R118 to R121) -/

/-- The draw of a dispense's close (R119). -/
def closeDraw (station : Nat) (hc : Hc) : Draw :=
  { bowser := station, time := (hc.closeTime.getD (0, false)).1, sure := (hc.closeTime.getD (0, false)).2,
    volume := (hc.summary.map Summary.std).getD 0 }

/-- JU reports that the write of the close has ended (R121). -/
def closeEnded (h : Hose) (s : State) : State :=
  if (s.hc.get h).state = .writing then
    let hc := s.hc.get h
    (ownClose h (hc.machine.getD 0) (closeDraw (stationId s) hc) s).updHc h Hc.rest
  else s

/-- The values HC hands JU for a close (R120). -/
def closeFields (hc : Hc) (m : Summary) (o : TagOutcome) : CloseFields :=
  { gross := m.gross, std := m.std, overrun := roundClNat hc.overrun, theta := m.theta, held := m.held,
    overspeed := m.overspeed, endCause := hc.endCause.getD .limit, tagOutcome := o,
    time := (hc.closeTime.getD (0, false)).1, sure := (hc.closeTime.getD (0, false)).2, amount := 0,
    recovered := false }

/-- The hose enters WRITING with its tag write outcome known (R120). A record that could take no number
(log 23), or a close with no summary because the MU refused it (log 66), has no write to wait for, and R121 follows at
once. -/
def enterWriting (h : Hose) (o : TagOutcome) (s : State) : State :=
  let s1 := pumpSettle (s.updHc h (fun hc =>
    { hc with state := .writing, tagOutcome := some o, tagStep := .none }))
  match s1.ju.slots.get h, (s1.hc.get h).summary with
  | some (.numbered _), some m => closeRecord h (closeFields (s1.hc.get h) m o) s1
  | _, _ => closeEnded h (withdrawRecord h s1)

/-- Whether the tag is to be written, whatever the TIU then answers (R119). -/
def tagWriteWanted (hc : Hc) (present : Bool) : Bool :=
  decide (hc.endCause ≠ some .nozzleHung) && decide (hc.endCause ≠ some .tagLost)
    && !hc.hungSinceEnd && present && decide (0 < (hc.summary.map Summary.std).getD 0)

/-- The tag history write decision (R119). -/
def decideTag (h : Hose) (s : State) : State :=
  let hc := s.hc.get h
  if tagWriteWanted hc (s.tiu.get h).present then
    match tagRequest h .hc (.writeHistory (hc.machine.getD 0) (closeDraw (stationId s) hc)) s with
    | (true, s1) => s1.updHc h (fun x => { x with tagStep := .writing })
    | (false, s1) => enterWriting h .failed s1
  else enterWriting h .notAttempted s

/-- The decision waits for a PROBE of HC's that still runs (R119). -/
def writeDecision (h : Hose) (s : State) : State :=
  if (s.tiu.get h).busy = .probing ∧ (s.tiu.get h).requester = some .hc then
    s.updHc h (fun hc => { hc with tagStep := .awaitProbe })
  else decideTag h s

/-- Steps 1 and 2 of the close sequence: the close time, then the MU's summary (R118). -/
def takeSummary (h : Hose) (s : State) : State :=
  let s1 := s.updHc h (fun hc =>
    { hc with closeTime := some (s.lc.clock, s.lc.sure), drainAt := none, drainLimitAt := none,
              noFlowAt := none, idleAt := none, probeAt := none })
  let r := muClose h s1
  r.2.updHc h (fun hc => { hc with summary := r.1 })

/-- The close sequence from a drain (R118). -/
def closeFromDrain (h : Hose) (s : State) : State := writeDecision h (takeSummary h s)

/-- The close sequence straight from AUTHORISED, or at the warning: no tag is written (R110, R127). -/
def closeStraight (h : Hose) (s : State) : State := enterWriting h .notAttempted (takeSummary h s)

/-! ### Ends (R110, R113, R128) -/

/-- The stage closes and the end cause is set; a hang has hung the nozzle since the end (R113). -/
def Hc.ends (hc : Hc) (c : EndCause) : Hc :=
  { hc with stage := .closed, endCause := some c, hungSinceEnd := decide (c = EndCause.nozzleHung),
            noFlowAt := none, idleAt := none, probeAt := none }.show (.ended c)

/-- A hose leaves AUTHORISED without having flowed (R110). With nothing metered, the record is withdrawn
and the machine released. -/
def leaveAuthorised (h : Hose) (c : EndCause) (s : State) : State :=
  let m := (s.hc.get h).machine.getD 0
  let s1 := sessionNone h (leaveWaiting h (s.updHc h (fun hc => hc.ends c)))
  if stdTotal s h = 0 then
    let s2 := release h m (withdrawRecord h (muClose h s1).2)
    pumpSettle (s2.updHc h Hc.rest)
  else closeStraight h s1

/-- The flow of a dispense ends and the line drains (R113, R117); JU gets its stop notice (R147). -/
def endFlow (h : Hose) (c : EndCause) (s : State) : State :=
  updOpenDispense h (fun d => { d with stopNotice := true })
    (s.updHc h (fun hc => { hc.ends c with state := .stopping, drainAt := some (s.now + sec 3),
                                           drainLimitAt := some (s.now + sec 30) }))

/-- The flow of a prove ends and the line drains (R128, R131). What is shown is left as it is, so the end cause
of a prove is not shown (log 47); a hang does not set hung since end (log 73). -/
def endProveRun (h : Hose) (c : EndCause) (s : State) : State :=
  leaveWaiting h (s.updHc h (fun hc =>
    { hc with stage := .closed, endCause := some c, idleAt := none, drainAt := some (s.now + sec 3),
              drainLimitAt := some (s.now + sec 30) }))

/-- Whether a prove's run goes on on this hose: in RUN before its flow has ended. -/
def proveFlows (h : Hose) (s : State) : Bool :=
  decide ((s.hc.get h).state = .proving) && decide (s.prove.phase = .run)
    && decide ((s.hc.get h).endCause = none)

/-- A cause of R110, R113 or R128 reaches the hose; one that comes after the end changes nothing. -/
def hoseEnd (h : Hose) (c : EndCause) (s : State) : State :=
  match (s.hc.get h).state with
  | .authorised => leaveAuthorised h c s
  | .flowing => endFlow h c s
  | .proving => if proveFlows h s then endProveRun h c s else s
  | _ => s

/-! ### Grant and preset (R108, R82) -/

/-- The HC takes a grant (R108). Were the MU to refuse the open, the grant would go on over the dispense already open
(log 57). -/
def grantHose (h : Hose) (limit : Nat) (binding : Binding) (m allowance : Nat) (s : State) : State :=
  let s1 := s.updHc h (fun hc =>
    { hc.discard with state := .authorised, limit := some limit, binding := some binding,
                      machine := some m, valveAlarm := false, shown := .nothing,
                      proveShown := none, allowanceShown := some allowance, factorNotStored := false })
  pumpRequest h (muOpen h false s1)

/-- AU hands a new limit and binding term while the hose is AUTHORISED (R108, R111). -/
def newLimit (h : Hose) (limit : Nat) (binding : Binding) (s : State) : State :=
  stageCompare h (s.updHc h (fun hc => { hc with limit := some limit, binding := some binding }))

/-! ### Pulses at the HC (R109, R112, R115, R117, R131) -/

/-- HC asks its TIU for a PROBE; a BUSY answer leaves nothing (R114). -/
def probe (h : Hose) (s : State) : State := (tagRequest h .hc .probe s).2

/-- The first pulse: the hose enters FLOWING and the session returns to NONE (R109). -/
def firstPulse (h : Hose) (s : State) : State :=
  probe h (sessionNone h (s.updHc h (fun hc =>
    { hc with state := .flowing, noFlowAt := none, idleAt := some (s.now + sec 60),
              probeAt := some (s.now + sec 1) })))

/-- The compares made on a pulse metered while FLOWING or in a prove's run. -/
def pulseCompares (h : Hose) (s : State) : State :=
  let s1 := stageCompare h s
  if limitReached h s1 then hoseEnd h .limit s1 else s1

/-- What the HC does on a metered pulse, its totals already carrying it. The first pulse of a joined hose gets
the stage compare as well as the limit compare (log 46). A pulse in the drain of a prove is no overrun (log 73). -/
def hosePulse (h : Hose) (std : Nat) (s : State) : State :=
  let hc := s.hc.get h
  match hc.state with
  | .authorised =>
    if hc.joined then pulseCompares h (firstPulse h s)
    else if limitReached h s then hoseEnd h .limit s else s
  | .flowing => pulseCompares h (s.updHc h (fun x => { x with idleAt := some (s.now + sec 60) }))
  | .stopping =>
    s.updHc h (fun x => { x with overrun := satAdd48 x.overrun std, drainAt := some (s.now + sec 3) })
  | .proving =>
    if proveFlows h s then
      pulseCompares h (s.updHc h (fun x =>
        { x with idleAt := if x.joined then some (s.now + sec 60) else none }))
    else s.updHc h (fun x => { x with drainAt := some (s.now + sec 3) })
  | _ => s

/-- A billed dispense's checkpoint is due: the pulse carried the total to or past a multiple of
10,000,000 µL while FLOWING or STOPPING (R123). The state is the one that the pulse leaves, so the first pulse of a
joined hose counts (log 72). -/
def checkpointDue (s : State) (h : Hose) (before : Nat) : Bool :=
  (decide ((s.hc.get h).state = .flowing) || decide ((s.hc.get h).state = .stopping))
    && decide (before / 10000000 < stdTotal s h / 10000000)

/-! ### Probe reports (R114, R119) -/

/-- The HC takes the report of its PROBE with the miss count (R114, R119). -/
def probeReport (h : Hose) (s : State) : State :=
  let misses := (s.tiu.get h).misses
  let hc := s.hc.get h
  if hc.state = .flowing then
    let s1 := s.updHc h (fun x => { x with tagNotSeen := decide (misses ≠ 0) })
    if misses = 3 then hoseEnd h .tagLost s1 else s1
  else if hc.tagStep = .awaitProbe then decideTag h (s.updHc h (fun x => { x with tagStep := .none }))
  else s

/-- The HC takes the report of its WRITE-HISTORY (R119). -/
def writeReport (h : Hose) (code : Completion) (s : State) : State :=
  if (s.hc.get h).tagStep = .writing then
    enterWriting h (if code = .writeDone then .done else .failed) s
  else s

end Sys2Proof.Machine
end

