-- ==== Sys2Proof/Machine/Proving.lean ====
section
/-! DEFINITION. Meter proving and the inspect page (chapter 7): the prove's phases on its hose, the outcome
with its band and new factor, the record and the factor write, and the values an inspect press reads. -/

namespace Sys2Proof.Machine

/-! ### Ends of a prove -/

/-- The hose leaves PROVING by its nozzle's position (R130, R134). -/
def leaveProving (h : Hose) (s : State) : State :=
  if (s.hc.get h).state = .proving then s.updHc h Hc.rest else s

/-- The prove ends with no record and lets its hose go (R130, R136). -/
def proveCancel (s : State) : State :=
  proveNone (match s.prove.hose with | some h => leaveProving h s | none => s)

/-! ### The outcome (R134, R136) -/

/-- The band with the most pulses, the lower number of two with the same count (R134). -/
def proveBand (q : Quad Nat) : Nat :=
  if q.b2 ≤ q.b1 ∧ q.b3 ≤ q.b1 ∧ q.b4 ≤ q.b1 then 1
  else if q.b3 ≤ q.b2 ∧ q.b4 ≤ q.b2 then 2
  else if q.b4 ≤ q.b3 then 3 else 4

/-- The total of the four counts. -/
def pulseTotal (q : Quad Nat) : Nat := q.b1 + q.b2 + q.b3 + q.b4

/-- F′ = F × V_p / V_m rounded half up (R134). -/
def correctedFactor (f vp vm : Nat) : Nat := (2 * f * vp + vm) / (2 * vm)

/-- The correction exceeds 2 % of F, or F′ is outside 95,000 to 105,000 (R134). -/
def correctionOut (f f' : Nat) : Bool :=
  decide (f < 50 * ((f' - f) + (f - f'))) || decide (f' < 95000) || decide (105000 < f')

/-- Outcome, old F and new F from the pulses, V_m, V_p and the factor set (R134). -/
def judgeProve (pulses factors : Quad Nat) (vm vp : Nat) : ProveOutcome × Nat × Nat :=
  let f := factors.get (proveBand pulses)
  if vm = 0 ∨ pulses.get (proveBand pulses) * 100 < pulseTotal pulses * 80 then (.unsteady, f, f)
  else
    let f' := correctedFactor f vp vm
    if correctionOut f f' then (.outOfRange, f, f) else (.accepted, f, f')

/-- The F′ shown beside F (R134): the corrected factor wherever step 3 computes it, F otherwise (log 38). -/
def shownFactor (o : ProveOutcome) (f vp vm : Nat) : Nat :=
  match o with
  | .accepted | .outOfRange => correctedFactor f vp vm
  | .unsteady | .abandoned => f

/-- The outcome is known: the hose leaves PROVING with the outcome shown, the phase is RECORDING and the record is
asked for (R134, R135). -/
def proveOutcome (o : ProveOutcome) (band : Option Nat) (oldF newF shownF : Nat) (vp : Option Nat) (s : State) :
    State :=
  let h := s.prove.hose.getD .a
  let s1 := { s with prove := { s.prove with
    phase := .recording, outcome := some o, band := band, oldF := oldF, newF := newF, vp := vp,
    timerAt := none } }
  let s2 := (leaveProving h s1).updHc h (fun hc => { hc with proveShown := some (o, oldF, shownF) })
  requestOrWait (.prove { hose := h, band := band, oldF := oldF, newF := newF,
                          vm := (s.prove.summary.map Summary.gross).getD 0, vp := vp, outcome := o,
                          supervisor := s.prove.supervisor }) s2

/-- The outcome ABANDONED (R136). -/
def proveAbandon (s : State) : State :=
  let pulses := (s.prove.summary.map Summary.pulses).getD (Quad.all 0)
  if pulseTotal pulses = 0 then proveOutcome .abandoned none 0 0 0 none s
  else
    let b := proveBand pulses
    let f := s.prove.factors.get b
    proveOutcome .abandoned (some b) f f f none s

/-- The vessel reading is taken and judged (R133, R134). -/
def proveReading (vp : Nat) (s : State) : State :=
  let pulses := (s.prove.summary.map Summary.pulses).getD (Quad.all 0)
  let vm := (s.prove.summary.map Summary.gross).getD 0
  let r := judgeProve pulses s.prove.factors vm vp
  proveOutcome r.1 (some (proveBand pulses)) r.2.1 r.2.2 (shownFactor r.1 r.2.1 vp vm) (some vp) s

/-! ### The run (R131, R132) -/

/-- The run begins (R131, R137). Were the MU to refuse the open, the run would go on all the same (log 57). -/
def proveRun (h : Hose) (s : State) : State :=
  let s1 := { s with
    prove := { s.prove with phase := .run, timerAt := none },
    su := { s.su with proveActive := true } }
  pumpRequest h ((muOpen h true s1).updHc h (fun hc => { hc.discard with limit := s.prove.vessel }))

/-- In READY the run begins when the nozzle is out (R130). -/
def proveReadyTest (s : State) : State :=
  match s.prove.phase, s.prove.hose with
  | .ready, some h => if (s.hc.get h).nozzleOut then proveRun h s else s
  | _, _ => s

/-- The factor set of a hose's open dispense. -/
def openFactors (s : State) (h : Hose) : Quad Nat :=
  match (s.mu.get h).dispense with
  | some d => d.factors
  | none => (s.mu.get h).table

/-- The HC hands the prove over: the MU is closed, the summary taken, and the pump no longer needed (R132). -/
def proveHandOver (h : Hose) (s : State) : State :=
  let r := muClose h s
  pumpSettle ({ r.2 with prove := { r.2.prove with
      phase := .reading, endCause := (s.hc.get h).endCause, summary := r.1, factors := openFactors s h,
      timerAt := some (s.now + sec 300) } }.updHc h (fun hc =>
    { hc with drainAt := none, drainLimitAt := none, joined := false }))

/-- Meter proving goes on by the summary and the end cause (R132). A close that the MU refuses brings no summary and
counts as one with no pulses (log 66). -/
def proveClose (h : Hose) (s : State) : State :=
  let s1 := proveHandOver h s
  if s1.prove.endCause = some .powerFail then proveCancel s1
  else if s1.prove.endCause = some .meterFault
      ∨ pulseTotal ((s1.prove.summary.map Summary.pulses).getD (Quad.all 0)) = 0 then proveAbandon s1
  else s1

/-! ### Keys (R129, R130, R133) -/

/-- PROVE, with authority held (R129). Where "power failing" and another prompt both fit, it is "power failing"
(log 48). -/
def proveKey (supervisor : Nat) (s : State) : State :=
  if s.warned then prompt .powerFailing s
  else if s.prove.phase ≠ .none then prompt .proveInProgress s
  else if s.sc.fault then prompt .storeFault s
  else { s with prove := { s.prove with phase := .select, supervisor := supervisor,
                                        timerAt := some (s.now + sec 10) } }

/-- A HOSE press in SELECT (R129). -/
def proveHose (h : Hose) (s : State) : State :=
  if s.prove.phase ≠ .select then s
  else if (s.hc.get h).state = .idle then
    { s with prove := { s.prove with phase := .size, hose := some h,
                                     timerAt := some (s.now + sec 120) } }.updHc h
      (fun hc => { hc with state := .proving })
  else prompt .hoseNotIdle s

/-- ENTER with a value for the prove's hose (R130, R131, R133). The 120 s of SIZE run on in READY (log 49), and
"supervisor key required" stands 3 s (log 67). -/
def proveEnter (value : Nat) (s : State) : State :=
  match s.prove.phase with
  | .size | .ready =>
    if s.pp.authority = false then prompt .supervisorKeyRequired s
    else if value < 1000 ∨ 100000 < value then prompt .vesselSizeOutOfRange s
    else proveReadyTest { s with prove := { s.prove with phase := .ready, vessel := some value } }
  | .reading =>
    if s.pp.authority = false then prompt .supervisorKeyRequired s
    else if value < 1 ∨ 110000 < value then prompt .readingOutOfRange s
    else proveReading value s
  | _ => s

/-- CLEAR with an empty entry for the prove's hose (R130, R131, R133). -/
def proveClear (s : State) : State :=
  match s.prove.phase with
  | .size | .ready => proveCancel s
  | .reading => proveAbandon s
  | _ => s

/-! ### The record and the factor (R135) -/

/-- The panel shows "factor not stored" for a hose (R135). -/
def factorNotStored (h : Hose) (s : State) : State :=
  s.updHc h (fun hc => { hc with factorNotStored := true })

/-- The factor write of an ACCEPTED prove is asked for (R135). -/
def askFactor (s : State) : State :=
  scAsk .proving { s with prove := { s.prove with
    step := .factor,
    factorWrite := some { hose := s.prove.hose.getD .a, band := s.prove.band.getD 1, newF := s.prove.newF } } }

/-- JU reports the write of the PROVE record that RECORDING waits for (R135); of a prove that the warning has ended
there is none (R136). -/
def proveRecordEnd (n : Nat) (good : Bool) (s : State) : State :=
  if s.prove.step = .record n then
    if good = false then proveNone (factorNotStored (s.prove.hose.getD .a) s)
    else if s.prove.outcome = some .accepted then askFactor s
    else proveNone s
  else s

/-- The factor's write has ended (R135): the MU takes the new factor, or the panel shows that it is not stored. The
write can outlast its prove, which the warning ends (R136, log 29). -/
def proveFactorEnd (good : Bool) (s : State) : State :=
  match s.prove.factorWrite with
  | none => s
  | some w =>
    let s1 := { s with prove := { s.prove with factorWrite := none } }
    let s2 := if good then s1.updMu w.hose (fun mu => { mu with table := mu.table.set w.band w.newF })
      else factorNotStored w.hose s1
    if s2.prove.phase = .recording then proveNone s2 else s2

/-- What the warning does to a prove not in RUN (R136): it ends with no record, and its hose is let go. In
RECORDING the hose is free already, and JU has dropped a waiting request (R162). -/
def proveWarned (s : State) : State :=
  match s.prove.phase with
  | .none | .run => s
  | .recording => proveNone s
  | .select | .size | .ready | .reading => proveCancel s

/-! ### The inspect page (R138, R139) -/

/-- *Not a value*: every bit set (R139). -/
def notAValue : BitVec 32 := BitVec.allOnes 32

/-- The value at a sub-address (R139); a strapping point as level in the upper half and volume in the lower
(R214). -/
def inspectValue (s : State) (sub : Nat) : BitVec 32 :=
  let table := strapTable s.cfg.params.strapPoints
  if sub ≤ 3 then BitVec.ofNat 32 (s.mu.a.table.get (sub + 1))
  else if 0x08 ≤ sub ∧ sub ≤ 0x0B then BitVec.ofNat 32 (s.mu.a.limits.get (sub - 0x08 + 1))
  else if 0x10 ≤ sub ∧ sub ≤ 0x13 then BitVec.ofNat 32 (s.mu.b.table.get (sub - 0x10 + 1))
  else if 0x18 ≤ sub ∧ sub ≤ 0x1B then BitVec.ofNat 32 (s.mu.b.limits.get (sub - 0x18 + 1))
  else if 0x20 ≤ sub ∧ sub ≤ 0x37 then
    match table[sub - 0x20]? with
    | some p => BitVec.ofNat 32 (p.1 * 65536 + p.2)
    | none => notAValue
  else notAValue

end Sys2Proof.Machine
end

