-- ==== Sys2Proof/Machine/Authorise.lean ====
section
/-! DEFINITION. Authorisation (chapter 4): a session from the lift to its grant, refusal or end, and presets. -/

namespace Sys2Proof.Machine

/-! ### Ends without a grant (R78, R79, R83) -/

/-- A release of the session's machine when its identification was HELD. -/
def releaseHeld (h : Hose) (s : State) : State :=
  match (s.au.session.get h).ident, (s.au.session.get h).fixed with
  | some .held, some f => release h f.machine s
  | _, _ => s

/-- The machine id a REFUSAL record carries (R79). -/
def refusalMachine (se : Session) : Option Nat :=
  match se.fixed with
  | some f => if 1 ≤ f.machine then some f.machine else none
  | none => none

/-- The hose's pending operator and pending preset become none. -/
def takePending (h : Hose) (s : State) : State :=
  { s with pp := { s.pp with pendingOp := s.pp.pendingOp.set h none },
           au := { s.au with preset := s.au.preset.set h none } }

/-- AU asks for a REFUSAL record where R79 allows. -/
def refusalRecord (h : Hose) (r : RefusalReason) (machine operator : Option Nat) (s : State) : State :=
  if 64 ≤ s.ju.free ∧ s.sc.fault = false then (requestRecord (.refusal h r machine operator) s).2 else s

/-- A session is refused (R78). -/
def refuse (h : Hose) (r : RefusalReason) (s : State) : State :=
  let s1 := releaseHeld h (takePending h s)
  let s2 := refusalRecord h r (refusalMachine (s.au.session.get h)) (s.pp.pendingOp.get h) s1
  sessionNone h (s2.updHc h (fun hc => { hc with state := .hangWait }.show (.refused r)))

/-- A session ends without grant or refusal, on a hang or at the warning (R83, R84). -/
def endSession (h : Hose) (s : State) : State :=
  match (s.hc.get h).state with
  | .identifying | .awaitKey | .querying =>
    sessionNone h ((releaseHeld h (cancelWait h s)).updHc h (fun hc =>
      { hc with state := restState hc.nozzleOut }))
  | _ => s

/-! ### The limit (R75, R76) -/

/-- The terms present, in the order of R75. -/
def termList (preset : Option Nat) (t : Terms) : List (Binding × Nat) :=
  (match preset with | some v => [(.preset, v)] | none => [])
    ++ [(.maximum, t.maximum), (.capacity, t.capacity), (.allowance, t.allowance), (.stock, t.stock)]
    ++ (match t.blind with | some v => [(.blind, v)] | none => [])

/-- The smaller of the limit so far and a later term; the earlier one keeps a tie (R76). -/
def smallerTerm (best x : Binding × Nat) : Binding × Nat := if x.2 < best.2 then x else best

/-- The granted limit with its binding term (R75, R76). -/
def chooseLimit (preset : Option Nat) (t : Terms) : Binding × Nat :=
  match termList preset t with
  | [] => (.maximum, t.maximum)
  | x :: rest => rest.foldl smallerTerm x

/-- AU reads the terms at grant (R75). -/
def termsAtGrant (f : FixedPart) (isBlind : Bool) (s : State) : Terms :=
  { maximum := s.cfg.params.maxDispense * 100, capacity := f.capacity * 100,
    allowance := (remainingAllowance f.machine s).remaining, stock := stockTerm s f.cls,
    blind := if isBlind then some (s.cfg.params.blindCap * 100) else none }

/-- The refusal of a limit below the minimum dispense (R76). -/
def belowMinimum : Binding → RefusalReason
  | .allowance => .noAllowance
  | .stock => .noStock
  | _ => .classRestricted

/-! ### Checks (R69, R71, R74) -/

/-- Checks 6 and 7 (R71). -/
def checksSixSeven (f : FixedPart) (s : State) : Option RefusalReason :=
  if s.ju.free < 3 then some .journalFull
  else if isBC f.cls ∧ (s.ju.free < 64 ∨ s.su.loss) then some .classRestricted
  else none

/-- Checks 1 to 4 (R69). -/
def checksOneFour (f : FixedPart) (ident : Ident) (s : State) : Option RefusalReason :=
  if s.cfg.configured = false then some .notConfigured
  else if s.sc.fault then some .storeFault
  else if f.product ≠ s.cfg.params.product then some .wrongProduct
  else if ident = .otherHose then some .machineBusy
  else none

/-- The checks made again at grant (R74). -/
def checksAtGrant (f : FixedPart) (s : State) : Option RefusalReason :=
  if s.sc.fault then some .storeFault else checksSixSeven f s

/-! ### The grant (R74, R77) -/

/-- The DISPENSE record as AU asks JU to open it (R77, R141). -/
def newDispense (h : Hose) (f : FixedPart) (operator : Option Nat) (limit : Nat) (binding : Binding)
    (isBlind : Bool) (price : Nat × Nat × Bool) : DispenseRec :=
  { hose := h, machine := f.machine, cls := f.cls, costCentre := f.costCentre, operator := operator,
    limit := limit, binding := binding, blind := isBlind, book := price.2.1, price := price.1,
    unpriced := price.2.2, accGross := 0, accStd := 0, accOverrun := 0, stopNotice := false,
    adjustment := 0, close := none }

/-- AU grants the session (R77). Were JU to refuse the open, the grant would go on with no record of its own
(log 56). -/
def grantSession (h : Hose) (f : FixedPart) (t : Terms) (best : Binding × Nat) (s : State) : State :=
  let operator := s.pp.pendingOp.get h
  let preset := s.au.preset.get h
  let isBlind := (s.au.session.get h).blind
  let s1 := (takePending h s).updSession h (fun se => { se with terms := some t, presetTerm := preset })
  let price := priceLookup s1.pbu.banks f.costCentre
  let s2 := openRecord (newDispense h f operator best.2 best.1 isBlind price) s1
  grantHose h best.2 best.1 f.machine t.allowance s2

/-- AU goes to grant: the checks, the limit, and the grant or a refusal (R74 to R77). -/
def toGrant (h : Hose) (s : State) : State :=
  match (s.au.session.get h).fixed with
  | none => s
  | some f =>
    match checksAtGrant f s with
    | some r => refuse h r s
    | none =>
      let s1 := ageEntry f.machine s
      let t := termsAtGrant f (s.au.session.get h).blind s1
      let best := chooseLimit (s1.au.preset.get h) t
      if best.2 < 200 then refuse h (belowMinimum best.1) s1 else grantSession h f t best s1

/-! ### The query (R72, R73) -/

/-- The session goes to grant as blind or not. -/
def grantBlind (h : Hose) (isBlind : Bool) (s : State) : State :=
  toGrant h (s.updSession h (fun se => { se with blind := isBlind }))

/-- WAIT_ENDED reaches AU (R73). -/
def waitEnded (h : Hose) (freshSet : Bool) (s : State) : State :=
  if (s.hc.get h).state = .querying then grantBlind h (!freshSet) s else s

/-- A query wait ends: the table, then WAIT_ENDED (R60). -/
def endWait (h : Hose) (m : Nat) (s : State) : State :=
  waitEnded h (decide (s.lc.link = .joined)) (endWaitTable h m s)

/-- LC reports a QUERY DISCARDED (R59). -/
def queryDiscarded (h : Hose) (id : Nat) (s : State) : State :=
  match s.mt.wait.get h with
  | .sending m id' _ => if id' = id then endWait h m s else s
  | _ => s

/-- The query decision (R72). -/
def queryDecision (h : Hose) (f : FixedPart) (s : State) : State :=
  if s.lc.link = .joined then
    if (s.au.session.get h).fresh then grantBlind h false s
    else
      match queryRequest h f.machine s with
      | (.notJoined, s1) => grantBlind h true s1
      | (.started, s1) => s1.updHc h (fun hc => { hc with state := .querying })
      | (.ended, s1) => waitEnded h true (s1.updHc h (fun hc => { hc with state := .querying }))
  else grantBlind h true s

/-! ### From the tag to the query (R65 to R71) -/

/-- AU makes checks 6 and 7 and the query decision (R71, R72). -/
def afterKey (h : Hose) (s : State) : State :=
  match (s.au.session.get h).fixed with
  | none => s
  | some f =>
    match checksSixSeven f s with
    | some r => refuse h r s
    | none => queryDecision h f s

/-- Check 5 (R70). -/
def checkKey (h : Hose) (f : FixedPart) (s : State) : State :=
  if f.keyRequired ∧ (s.pp.pendingOp.get h).isNone then
    (s.updSession h (fun se => { se with keyWaitFrom := some s.now })).updHc h
      (fun hc => { hc with state := .awaitKey })
  else afterKey h s

/-- Every field of a fixed part is in its range (R67). -/
def fixedPartOk (f : FixedPart) : Bool :=
  decide (f.format = 1) && decide (1 ≤ f.machine) && decide (f.machine ≤ 16777215)
    && decide (1 ≤ f.cls) && decide (f.cls ≤ 3) && decide (f.costCentre ≤ 9999)
    && decide (1 ≤ f.product) && decide (f.product ≤ 15) && decide (1 ≤ f.capacity)
    && decide (f.capacity ≤ 5000) && decide (1 ≤ f.allowance) && decide (f.allowance ≤ 20000)
    && decide (1 ≤ f.window) && decide (f.window ≤ 168)

/-- AU hands MT an identification and takes its answers (R68, R49). -/
def identification (h : Hose) (r : TagRecord) (s : State) : State :=
  let s1 := identify h r.fixed r.history s
  s1.updSession h (fun se => { se with ident := some (identAnswer h r.fixed.machine s1),
                                       fresh := freshAnswer r.fixed.machine s1 })

/-- A session takes a READ_DONE (R66 to R70). -/
def takeTag (h : Hose) (r : TagRecord) (s : State) : State :=
  let s1 := s.updSession h (fun se => { se with fixed := some r.fixed, nextRead := none })
  if fixedPartOk r.fixed then
    let s2 := identification h r s1
    match checksOneFour r.fixed ((s2.au.session.get h).ident.getD .held) s2 with
    | some x => refuse h x s2
    | none => checkKey h r.fixed s2
  else refuse h .tagInvalid s1

/-- The report of a READ asked for in a session (R65, R66). -/
def readReport (h : Hose) (serial : Nat) (code : Completion) (s : State) : State :=
  if (s.hc.get h).state = .identifying ∧ (s.au.session.get h).serial = serial ∧ code = .readDone then
    match (s.tiu.get h).record with
    | some r => takeTag h r s
    | none => s
  else s

/-- AU requests a READ (R65). -/
def requestRead (h : Hose) (s : State) : State :=
  (tagRequest h (.au (s.au.session.get h).serial) .read s).2

/-- AU starts a session at a lift (R65). -/
def startSession (h : Hose) (s : State) : State :=
  requestRead h (s.updSession h (fun se =>
    { Session.empty (se.serial + 1) with startAt := some s.now, nextRead := some (s.now + sec 1) }))

/-- A key presented for a hose in AWAIT_KEY lets its session go on (R70). -/
def keyForHose (h : Hose) (s : State) : State :=
  if (s.hc.get h).state = .awaitKey then afterKey h s else s

/-! ### Presets (R80 to R82) -/

/-- A preset after grant (R82). -/
def presetAfterGrant (h : Hose) (value : Nat) (s : State) : State :=
  match (s.au.session.get h).terms with
  | none => s
  | some t =>
    let best := chooseLimit (some value) t
    let s1 := s.updSession h (fun se => { se with presetTerm := some value })
    newLimit h best.2 best.1
      (updOpenDispense h (fun d => { d with limit := best.2, binding := best.1 }) s1)

/-- A preset value for a hose, by its state (R81, R82). -/
def presetValue (h : Hose) (value : Nat) (s : State) : State :=
  match (s.hc.get h).state with
  | .idle | .identifying | .awaitKey | .querying =>
    { s with au := { s.au with preset := s.au.preset.set h (some value) } }
  | .authorised => presetAfterGrant h value s
  | _ => prompt .presetNotTaken s

end Sys2Proof.Machine
end

