-- ==== Sys2Proof/Machine/Gauge.lean ====
section
/-! DEFINITION. What SU does with gauge readings, stock checks, the ACK and ADOPT keys, and deliveries
(sections 10.2, 10.5 and 10.8). -/

namespace Sys2Proof.Machine

/-! ### Readings (R174, R175) -/

/-- A gauge reading is valid (R174). -/
def readingValid (fault : Bool) (level : Nat) (temperature : Int) : Bool :=
  !fault && decide (level ≤ 4000) && decide (-400 ≤ temperature) && decide (temperature ≤ 700)

/-- The last ten levels (R175). -/
def addLevel (level : Nat) (history : List Nat) : List Nat :=
  (history ++ [level]).drop (history.length + 1 - 10)

/-- SU takes a valid reading's level, temperature and gauge standard (R174 to R178). An unusable strapping
table holds the gauge in GAUGE_FAULT, with no gauge standard (R176, log 34). -/
def takeReading (level : Nat) (temperature : Int) (s : State) : State :=
  let su := { s.su with lastValid := s.now, lastLevel := some level, lastTemp := some temperature,
                        history := addLevel level s.su.history }
  if su.strapUsable then
    let t := strapTable s.cfg.params.strapPoints
    { s with su := { su with
        gauge := .good,
        standard := some (gaugeStandard (tankVolume t level) s.cfg.params.tankAlpha temperature),
        strapClamp := if levelClamped t level then satInc max16 su.strapClamp else su.strapClamp } }
  else { s with su := su }

/-- 10 s have passed with no valid reading (R174, R175). -/
def gaugeFails (s : State) : State := { s with su := { s.su with gauge := .fault, history := [] } }

/-! ### Stock checks (R183, R184) -/

/-- A check is due (R183). -/
def checkDue (s : State) : Bool :=
  decide (s.su.lastCheck + sec 1800 ≤ s.now) || s.su.deliverySince

/-- The outcome of a variance (R184). -/
def checkOutcome (p : Params) (variance : Int) : CheckOutcome :=
  if variance < -(tolerance p) then .outLow else if tolerance p < variance then .outHigh else .inside

/-- The consecutive OUT_LOW count after a check (R184). -/
def lowCountAfter (o : CheckOutcome) (n : Nat) : Nat :=
  match o with
  | .outLow => satInc 3 n
  | _ => 0

/-- A change of the loss-suspect state is followed by a stock write (R180). -/
def askStockIf (changed : Bool) (s : State) : State := if changed then askStock s else s

/-- SU makes a stock check (R184). -/
def stockCheck (s : State) : State :=
  let g := s.su.standard.getD 0
  let b := bookCl s.su.book
  let v := (g : Int) - b
  let o := checkOutcome s.cfg.params v
  let count := lowCountAfter o s.su.lowCount
  let loss := s.su.loss || decide (count = 3)
  match requestRecord (.stockCheck g b v o loss) s with
  | (some _, s1) =>
    askStockIf (loss != s.su.loss) { s1 with su := { s1.su with
      lowCount := count, loss := loss, lastCheck := s.now, deliverySince := false, checkSkipped := false,
      overCapacity := false, lastOutcome := some (o, v) } }
  | (none, s1) =>
    { s1 with su := { s1.su with retryAt := some (s.now + sec 60), checkSkipped := true } }

/-- SU considers a check (R183). -/
def considerCheck (s : State) : State :=
  if checkDue s ∧ settled s ∧ s.su.retryAt = none ∧ s.warned = false then stockCheck s else s

/-! ### ACK and ADOPT (R185, R186) -/

/-- ACK with authority held (R185). After the warning "power failing" is shown, in either loss state (log 48), for 3 s
(log 67). -/
def ackKey (s : State) : State :=
  if s.warned then prompt .powerFailing s
  else if s.su.loss then askStock { s with su := { s.su with loss := false, lowCount := 0 } }
  else prompt .nothingToAcknowledge s

/-- ADOPT with authority held (R186). After the warning "power failing" is shown, settled gauge or not (log 48). -/
def adoptKey (supervisor : Nat) (s : State) : State :=
  if s.warned then prompt .powerFailing s
  else if settled s then
    requestOrWait (.adjust ((s.su.standard.getD 0 : Nat) - bookCl s.su.book) supervisor) s
  else prompt .gaugeNotSettled s

/-! ### Deliveries (R192, R193) -/

/-- A pair is remembered, the oldest dropped when 8 are held (R193). -/
def rememberPair (p : Nat × Nat) (memory : List (Nat × Nat)) : List (Nat × Nat) :=
  (memory ++ [p]).drop (memory.length + 1 - 8)

/-- The over-capacity flag of a book in µL (R193). -/
def overCapacity (p : Params) (book : BitVec 48) : Bool :=
  decide ((p.tankCapacity : Int) * 1000000 < book.toInt)

/-- SU accepts a delivery (R193). -/
def acceptDelivery (source number volume time : Nat) (full : Bool) (s : State) : State :=
  askStock (reevaluateClaim { s with su := { s.su with
    book := bookAdd s.su.book ((volume : Int) * 10000), memory := rememberPair (source, number) s.su.memory,
    deliverySince := true, overCapacity := s.su.overCapacity || full,
    lastDelivery := some (source, number, volume, time) } })

/-- SU checks a DELIVERY frame (R192). -/
def delivery (source number volume time : Nat) (s : State) : State :=
  if volume < 10000 ∨ 4000000 < volume then
    { s with su := { s.su with badDelivery := satInc max16 s.su.badDelivery } }
  else if s.su.memory.contains (source, number) then
    { s with su := { s.su with duplicateDelivery := satInc max16 s.su.duplicateDelivery } }
  else
    let after := bookAdd s.su.book ((volume : Int) * 10000)
    let full := overCapacity s.cfg.params after
    match requestRecord (.delivery source number volume (bookCl after) full) s with
    | (some _, s1) => acceptDelivery source number volume time full s1
    | (none, s1) =>
      { s1 with su := { s1.su with notRecorded := satInc max16 s1.su.notRecorded,
                                   notRecordedUntil := some (s1.now + sec 10) } }

end Sys2Proof.Machine
end

