-- ==== Sys2Proof/Machine/Receive.lean ====
section
/-! DEFINITION. Receiving frames and the site clock (sections 1.4 to 1.6): the checks of R13, what each kind
of heard frame does, the reassembly of price books, conflicts, claims and MARKs. -/

namespace Sys2Proof.Machine

/-- Change LC's counters. -/
def updCounters (f : FrameCounters → FrameCounters) (s : State) : State :=
  { s with lc := { s.lc with counters := f s.lc.counters } }

/-! ### The link withdrawn (R21) -/

/-- LC reports a waiting frame DISCARDED to its block (R11). -/
def reportDiscarded (f : TxFrame) (s : State) : State :=
  match f.owner with
  | .query h id => queryDiscarded h id s
  | .offer serial _ _ => offerDiscarded serial s
  | _ => s

/-- Report every frame of an emptied queue, head first. -/
def reportAll : List TxFrame → State → State
  | [], s => s
  | f :: rest, s => reportAll rest (reportDiscarded f s)

/-- A station id conflict withdraws the link (R21). -/
def withdrawLink (s : State) : State :=
  reportAll s.lc.queue { s with lc := { s.lc with
    link := .withdrawn, queue := [], countdown := none, listenAt := none, settleAt := none,
    lastStatusAt := none } }

/-- A heard HELLO or STATUS shows a station id conflict (R21). -/
def conflicts (source : Nat) (start : BitVec 16) (s : State) : Bool :=
  decide (s.cfg.params.station = some source) && start != s.lc.startNumber
    && s.lc.link != .withdrawn && !s.warned

/-- LC checks a heard HELLO or STATUS for a conflict (R21). -/
def conflictCheck (source : Nat) (start : BitVec 16) (s : State) : State :=
  if conflicts source start s then withdrawLink s else s

/-! ### The claims list (R190), kept by rising station id -/

/-- The entry to drop: oldest last-heard time, then lower station id. -/
def claimToDrop : List Claim → Option Claim
  | [] => none
  | c :: rest =>
    match claimToDrop rest with
    | none => some c
    | some best =>
      if c.heardAt < best.heardAt ∨ (c.heardAt = best.heardAt ∧ c.station < best.station)
      then some c else some best

/-- Room for one more entry in a list of at most 16. -/
def claimRoom (l : List Claim) : List Claim :=
  if l.length < 16 then l
  else
    match claimToDrop l with
    | none => l
    | some c => l.filter (fun x => x.station != c.station)

/-- An entry placed by station id. -/
def insertClaim (c : Claim) : List Claim → List Claim
  | [] => [c]
  | x :: rest => if c.station < x.station then c :: x :: rest else x :: insertClaim c rest

/-- The claims list after a heard STATUS (R190). -/
def claimsAfter (l : List Claim) (station cover now : Nat) (claimed : Bool) : List Claim :=
  let others := l.filter (fun x => x.station != station)
  if claimed then
    insertClaim { station := station, cover := cover, heardAt := now }
      (if l.any (fun x => x.station == station) then others else claimRoom others)
  else others

/-- LC updates the claims list from a STATUS of another bowser (R190). A claim flag that is neither 0 nor 1 counts as
set (log 58). -/
def heardClaim (source : Nat) (b : StatusBody) (s : State) : State :=
  if 1 ≤ source ∧ source ≤ 47 ∧ s.cfg.params.station ≠ some source then
    { s with lc := { s.lc with
      claims := claimsAfter s.lc.claims source b.cover.toNat s.now (b.claimFlag != 0) } }
  else s

/-! ### The site clock (R24 to R26) -/

/-- The sure flag set by a MARK, with the switch test when the clock's value or its flag has changed or a hold has
ended (R26, R169). -/
def clockMarked (old : Lc) (s : State) : State :=
  let s1 := { s with lc := { s.lc with sure := true } }
  if old.sure = false ∨ old.clock ≠ s1.lc.clock ∨ (old.hold.isSome ∧ s1.lc.hold.isNone) then switchTest s1
  else s1

/-- LC compares a MARK's collector time with the site clock (R26). -/
def clockMark (t : Nat) (s : State) : State :=
  let c := s.lc.clock
  clockMarked s.lc (
    if c + 2 < t then
      scAsk .lc { s with lc := { s.lc with clock := t, hold := none, nextCount := s.now + sec 1 } }
    else if t + 2 < c then
      { s with lc := { s.lc with hold := some (s.now + sec (c - t)) } }
    else if s.lc.hold.isSome then
      { s with lc := { s.lc with hold := none, nextCount := s.now + sec 1 } }
    else s)

/-- The site clock counts one second (R24, R169). -/
def clockCount (s : State) : State :=
  switchTest { s with lc := { s.lc with clock := satInc max32 s.lc.clock,
                                        nextCount := s.lc.nextCount + sec 1 } }

/-! ### Price fragments (R15, R16) -/

/-- An open reassembly is abandoned and PBU is told (R16). -/
def abandonReassembly (s : State) : State :=
  bookAbandoned { s with lc := { s.lc with reassembly := none } }

/-- A PRICE frame is discarded and counted (R15). -/
def fragmentDiscard (s : State) : State :=
  updCounters (fun c => { c with fragment := satInc max16 c.fragment }) s

/-- PBU is handed a fragment by its form (R166 to R168); a begin fragment that is also the end is judged by
R168 at once, where its count fails. -/
def handFragment (endFlag : Bool) (b : PriceBody) (s : State) : State :=
  match b with
  | .begins n t c =>
    let s1 := bookBegin n.toNat t.toNat c.toNat s
    if endFlag then bookEnd 0 s1 else s1
  | .entries e f => bookEntries e f s
  | .ends crc => bookEnd crc s

/-- A begin fragment with index 0 (R15). -/
def beginFragment (hd : Header) (b : PriceBody) (s : State) : State :=
  let s1 := if s.lc.reassembly.isSome then abandonReassembly s else s
  handFragment hd.endFlag b { s1 with lc := { s1.lc with
    reassembly := if hd.endFlag then none
      else some { source := hd.source.toNat, next := 1, accepted := 1, lastAt := s1.now } } }

/-- A fragment of the open source with the expected index (R15); a tenth without the end flag abandons (R16). -/
def nextFragment (r : Reassembly) (hd : Header) (b : PriceBody) (s : State) : State :=
  if hd.endFlag then handFragment true b { s with lc := { s.lc with reassembly := none } }
  else
    let s1 := handFragment false b { s with lc := { s.lc with
      reassembly := some { r with next := r.next + 1, accepted := r.accepted + 1, lastAt := s.now } } }
    if r.accepted + 1 = 10 then abandonReassembly s1 else s1

/-- LC deals with a PRICE frame (R15). -/
def priceFrame (hd : Header) (index : Nat) (b : PriceBody) (s : State) : State :=
  if hd.beginFlag then (if index = 0 then beginFragment hd b s else fragmentDiscard s)
  else
    match s.lc.reassembly with
    | none => fragmentDiscard s
    | some r =>
      if r.source ≠ hd.source.toNat then fragmentDiscard s
      else if index = r.next then nextFragment r hd b s
      else fragmentDiscard (abandonReassembly s)

/-! ### Heard frames (R13, R14) -/

/-- The frames-heard count of record spacing; at 3 the spacing releases (R6). -/
def spacingHeard (s : State) : State :=
  let sp := s.lc.spacing
  if sp.held then
    if 3 ≤ sp.count + 1 then
      lcKick { s with lc := { s.lc with spacing := { sp with count := 3, held := false } } }
    else { s with lc := { s.lc with spacing := { sp with count := sp.count + 1 } } }
  else s

/-- LC's own account of a heard frame (R14, R20). -/
def heardFrame (s : State) : State :=
  spacingHeard { s with lc := { s.lc with
    lastHeard := some s.now,
    link := if s.lc.link = .isolated ∧ s.warned = false then .joined else s.lc.link } }

/-- A heard frame passed on by its kind (R14). -/
def passOn (hd : Header) (body : FrameBody) (s : State) : State :=
  let source := hd.source.toNat
  match body with
  | .hello start _ => conflictCheck source start s
  | .status b => heardClaim source b (conflictCheck source b.startNumber s)
  | .draw m d => heardDraw source m.toNat d s
  | .query m w => heardQuery m.toNat w.toNat s
  | .answer m ds => heardAnswer source m.toNat ds s
  | .record _ _ _ => s
  | .mark target n t =>
    let s1 := clockMark t.toNat s
    if s.cfg.params.station = some target.toNat then takeMark n.toNat s1 else s1
  | .price index b => priceFrame hd index.toNat b s
  | .delivery target n v t =>
    if s.cfg.params.station = some target.toNat then delivery source n.toNat v.toNat t.toNat s else s

/-- Check 4 of R13. -/
def spareOk (hd : Header) (body : FrameBody) : Bool :=
  hd.spare0 == 0 && hd.spare1 == 0 && (match body with
    | .record _ _ _ | .price _ _ => true
    | _ => hd.beginFlag && hd.endFlag)

/-- Check 5 of R13. -/
def sourceOk (source : Nat) (body : FrameBody) : Bool :=
  match body with
  | .hello _ _ | .status _ => decide (1 ≤ source) && decide (source ≤ 62)
  | .draw _ _ | .query _ _ | .answer _ _ | .record _ _ _ => decide (1 ≤ source) && decide (source ≤ 47)
  | .delivery _ _ _ _ => decide (48 ≤ source) && decide (source ≤ 55)
  | .mark _ _ _ | .price _ _ => decide (56 ≤ source) && decide (source ≤ 62)

/-- Check 6 of R13. -/
def ownIdOk (station : Option Nat) (source : Nat) (body : FrameBody) : Bool :=
  match body with
  | .hello _ _ | .status _ => true
  | _ => decide (station ≠ some source)

/-- The first check from 4 on that a frame fails is counted; a frame that passes them is heard (R13, R14). -/
def checkFrame (hd : Header) (body : FrameBody) (s : State) : State :=
  if spareOk hd body = false then updCounters (fun c => { c with spare := satInc max16 c.spare }) s
  else if sourceOk hd.source.toNat body = false then
    updCounters (fun c => { c with source := satInc max16 c.source }) s
  else if ownIdOk s.cfg.params.station hd.source.toNat body = false then
    updCounters (fun c => { c with ownId := satInc max16 c.ownId }) s
  else passOn hd body (heardFrame s)

/-- Whether LC takes bytes: it receives nothing while it transmits, and nothing more of a carrier whose
frame it has judged (R12, log 10). -/
def receiving (s : State) : Bool := s.lc.tx.isNone && s.lc.rx != .judged

/-- The frame of the present carrier has been judged (R12). -/
def markJudged (s : State) : State :=
  { s with lc := { s.lc with rx := if s.lc.rx = .receiving then .judged else s.lc.rx } }

/-- A frame that comes as its fields; its length can miss the lengths of its kind (R13). -/
def receiveFields (hd : Header) (body : FrameBody) (s : State) : State :=
  if receiving s then
    let s1 := markJudged s
    if fieldsLengthOk hd body then checkFrame hd body s1
    else updCounters (fun c => { c with length := satInc max16 c.length }) s1
  else s

/-- The bytes of a carrier judged (R12, R13). -/
def judgeLine (line : List Byte) (s : State) : State :=
  match judgeBytes line with
  | .badLength => updCounters (fun c => { c with length := satInc max16 c.length }) s
  | .badCrc => updCounters (fun c => { c with crc := satInc max16 c.crc }) s
  | .badKind => updCounters (fun c => { c with kind := satInc max16 c.kind }) s
  | .good hd body => checkFrame hd body s

/-- A frame that comes as its bytes. -/
def receiveLine (line : List Byte) (s : State) : State :=
  if receiving s then judgeLine line (markJudged s) else s

end Sys2Proof.Machine
end

