-- ==== Sys2Proof/Machine/Heads.lean ====
section
/-! DEFINITION. What the reader heads answer (sections 2.2 and 2.3): how an answer continues or ends a
transaction, and the report of its completion code. -/

namespace Sys2Proof.Machine

/-- A transaction ends with a code, which is reported to its requester (R30). -/
def finishTag (h : Hose) (code : Completion) (s : State) : State :=
  let t := s.tiu.get h
  let s1 := s.updTiu h (fun x => x.finish code)
  match t.requester with
  | some (.au serial) => readReport h serial code s1
  | some .hc => if t.busy = .probing then probeReport h s1 else writeReport h code s1
  | none => s1

/-- The next command of a transaction that goes on. -/
def continueTag (h : Hose) (busy : TagBusy) (op : HeadOp) (endMark : Bool) (s : State) : State :=
  s.updTiu h (fun t => { t.send op false endMark s.now with busy := busy })

/-- Both fragments of a READ are in (R32); on READ_DONE they become the last tag record read. -/
def readEnds (h : Hose) (fixed : FixedPart) (f1 f2 : List Byte) (s : State) : State :=
  let hist := historyOf f1 f2
  let code := readCode fixed hist
  finishTag h code (if code = .readDone then
    s.updTiu h (fun t => { t with record := some { fixed := fixed, history := hist } }) else s)

/-- Fragment 2 of a WRITE-HISTORY is written (R34). The new history goes under the fixed part that the last tag record
read has, whichever machine's it is, and no record stays none (log 70). -/
def writeEnds (h : Hose) (hist : History) (s : State) : State :=
  finishTag h .writeDone (s.updTiu h (fun t =>
    { t with record := t.record.map (fun r => { r with history := hist }) }))

/-- A good fragment 0 is kept and fragment 1 read; one whose CRC fails ends the READ (R31). -/
def fragmentZero (h : Hose) (bytes : List Byte) (s : State) : State :=
  match fixedPartOf bytes with
  | some fixed => continueTag h (.read1 fixed) (.readFragment 1) false s
  | none => finishTag h (.tagError .checkFail) s

/-- An answer of DONE, by the transaction's progress (R31 to R35). -/
def answeredDone (h : Hose) (bytes : List Byte) (s : State) : State :=
  match (s.tiu.get h).busy with
  | .idle => s
  | .read0 => fragmentZero h bytes s
  | .read1 fixed => continueTag h (.read2 fixed bytes) (.readFragment 2) true s
  | .read2 fixed f1 => readEnds h fixed f1 bytes s
  | .write1 m hist => continueTag h (.write2 m hist) (.writeFragment 2 m (historyFragment2 hist)) true s
  | .write2 _ hist => writeEnds h hist s
  | .probing => finishTag h .probeDone s

/-- Whether a WRITE-HISTORY is in progress. -/
def TagBusy.isWrite : TagBusy → Bool
  | .write1 _ _ | .write2 _ _ => true
  | _ => false

/-- An accepted answer continues or ends the transaction (R31 to R35). OTHER_TAG is an answer to a write
only; to any other command it is taken as ABSENT (log 19). -/
def takeAnswer (h : Hose) (result : HeadResult) (s : State) : State :=
  match result with
  | .done bytes => answeredDone h bytes s
  | .absent => finishTag h (.tagError .noTag) s
  | .otherTag =>
    finishTag h (.tagError (if (s.tiu.get h).busy.isWrite then .changed else .noTag)) s

/-- An answer is accepted (R29): its check matches, its number is the waiting command's, and it comes
within 500 ms. Whether the check matches comes with the answer (log 63). -/
def answerAccepted (t : Tiu) (checkOk : Bool) (number now : Nat) : Bool :=
  match t.waiting with
  | some c => checkOk && decide (c.number = number) && decide (now ≤ c.sentAt + ms 500)
  | none => false

/-- HEAD_ANSWER (R29, R31 to R36). -/
def execHeadAnswer (h : Hose) (checkOk : Bool) (number : Byte) (result : HeadResult) (s : State) : Result :=
  live s (fun s =>
    if answerAccepted (s.tiu.get h) checkOk number.toNat s.now then takeAnswer h result s
    else s.updTiu h (fun t => { t with headErrors := satInc max16 t.headErrors }))

/-- HEAD_COMMAND_TIMEOUT: 500 ms with no accepted answer (R29, R31 to R35). -/
def execHeadCommandTimeout (h : Hose) (s : State) : Result :=
  live s (fun s => atDue ((s.tiu.get h).waiting.map (fun c => c.sentAt + ms 500)) s
    (finishTag h (.tagError .timeout)))

end Sys2Proof.Machine
end

