-- ==== Sys2Proof/Machine/Meters.lean ====
section
/-! DEFINITION. The commands of the meters (chapter 5): pulser edges and window ends. -/

namespace Sys2Proof.Machine

/-- A metered pulse of a billed dispense handed on to JU, SU and HC (R100), with the checkpoint that it may
make due (R123). The order of the receivers is log 22. -/
def billedPulse (h : Hose) (before gross std : Nat) (s : State) : State :=
  let s1 := hosePulse h std (suIncrement std (recordIncrement h gross std s))
  if checkpointDue s1 h before then scAsk (.hc h) s1 else s1

/-- A metered pulse (R90, R98 to R100). -/
def meteredPulse (h : Hose) (d : MuDispense) (s : State) : State :=
  let p := s.cfg.params.hose.get h
  let r := d.meter p.pulseWeight p.alpha
  let s1 := s.updMu h (fun mu => { mu with dispense := some r.2.2 })
  if d.isProve then hosePulse h r.2.1 s1 else billedPulse h d.std r.1 r.2.1 s1

/-- A forward pulse: counted in the window, metered or stray, and reported to SU as movement (R90). -/
def forwardPulse (h : Hose) (s : State) : State :=
  let s1 := meterMoved (s.updMu h (fun mu => { mu with windowCount := satInc max16 mu.windowCount }))
  match (s1.mu.get h).dispense with
  | some d => meteredPulse h d s1
  | none => s1.updMu h (fun mu => { mu with stray := satInc max16 mu.stray })

/-- A reverse pulse (R91). -/
def reversePulse (h : Hose) (s : State) : State :=
  s.updMu h (fun mu => { mu with
    reverse := satInc max16 mu.reverse,
    dispense := mu.dispense.map (fun d => { d with reverses := satInc max16 d.reverses }) })

/-- A mismatch in a dispense; its 21st is to be reported, once (R91). -/
def MuDispense.mismatch (d : MuDispense) : MuDispense :=
  { d with mismatches := satInc 255 d.mismatches,
           faultReported := d.faultReported || decide (21 ≤ satInc 255 d.mismatches) }

/-- Whether this mismatch is the one that reports METER_FAULT (R91). -/
def faultDue (d : MuDispense) : Bool := decide (21 ≤ satInc 255 d.mismatches) && !d.faultReported

/-- A mismatch (R91). -/
def mismatchEdge (h : Hose) (s : State) : State :=
  let due := match (s.mu.get h).dispense with | some d => faultDue d | none => false
  let s1 := s.updMu h (fun mu => { mu with
    mismatch := satInc max16 mu.mismatch, dispense := mu.dispense.map MuDispense.mismatch })
  if due then hoseEnd h .meterFault s1 else s1

/-- A rising edge of channel A (R89). -/
def risingA (h : Hose) (levelB : Bool) (s : State) : State :=
  let edge := judgeEdge (s.mu.get h) levelB
  let s1 := s.updMu h Mu.afterEdge
  match edge with
  | .forward => forwardPulse h s1
  | .reverse => reversePulse h s1
  | .mismatch => mismatchEdge h s1

/-- PULSE: a rising edge of channel A with channel B's level (R89 to R91). -/
def execPulse (h : Hose) (levelB : Bool) (s : State) : Result := live s (risingA h levelB)

/-- An edge of channel B; each count stops at 2 (R89). -/
def edgeB (rising : Bool) (mu : Mu) : Mu :=
  if rising then { mu with rises := satInc 2 mu.rises } else { mu with falls := satInc 2 mu.falls }

/-- CHANNEL_B_EDGE (R89). -/
def execChannelBEdge (h : Hose) (rising : Bool) (s : State) : Result :=
  live s (fun s => s.updMu h (edgeB rising))

/-- An open dispense at a window end: the band, then the temperature in use (R93, R96). -/
def MuDispense.windowEnds (d : MuDispense) (limits : Quad Nat) (rate : Nat) (sample : Option Int) :
    MuDispense :=
  let d1 := (d.chooseBand limits rate).sampled sample
  { d1 with forcedSlow := d1.forcedSlow || d1.forcedSlowDue }

/-- The meter at a window end (R92, R95); the next window begins at the one's end. -/
def Mu.windowEnds (mu : Mu) (rate : Nat) (windowN : Nat) (sample : Option Int) : Mu :=
  { mu with windowCount := 0, windowEnd := mu.windowEnd + ms (windowN * 100), lastRate := rate,
            lastTemp := if sample.isSome then sample else mu.lastTemp, sampleBad := sample.isNone,
            dispense := mu.dispense.map (fun d => d.windowEnds mu.limits rate sample) }

/-- Whether a window end reports FORCED_SLOW (R93). -/
def forcedSlowReported (mu : Mu) (rate : Nat) : Bool :=
  match mu.dispense with
  | some d => (d.chooseBand mu.limits rate).forcedSlowDue
  | none => false

/-- A flow window ends (R92, R93, R95, R96). -/
def windowEnds (h : Hose) (sample : TempSample) (s : State) : State :=
  let p := s.cfg.params.hose.get h
  let mu := s.mu.get h
  let rate := flowRate mu.windowCount p.pulseWeight p.windowN
  let s1 := s.updMu h (fun mu => mu.windowEnds rate p.windowN (goodSample sample))
  if forcedSlowReported mu rate then forcedSlow h s1 else s1

/-- FLOW_WINDOW_END (R92 to R96). -/
def execFlowWindowEnd (h : Hose) (sample : TempSample) (s : State) : Result :=
  live s (fun s => atDue (some (s.mu.get h).windowEnd) s (windowEnds h sample))

end Sys2Proof.Machine
end

