-- ==== Sys2Proof/Machine/Display.lean ====
section
/-! DEFINITION. The display records (R210): their items as they stand, and when PP sends them. The text lines
that PP composes of them are free values (log 53). -/

namespace Sys2Proof.Machine

/-- The fields of a hose's open DISPENSE record, wherever it stands. -/
def openDispense (s : State) (h : Hose) : Option DispenseRec :=
  match s.ju.slots.get h with
  | some (.reserved d) => some d
  | some (.numbered n) =>
    match s.ju.find n with
    | some r => match r.body with | .dispense d => some d | _ => none
    | none => none
  | none => none

/-- The hose record (R210, R64, R101, R105, R114, R125). The code beside "reading tag" (R65) is the TIU's, whichever
session asked for its READ (log 71). -/
def hoseRecord (s : State) (h : Hose) : HoseRecord :=
  let hc := s.hc.get h
  let mu := s.mu.get h
  let d := openDispense s h
  { state := hc.state, stage := hc.stage, liveStd := mu.dispense.map (fun x => x.std / 10000),
    limit := hc.limit, binding := hc.binding, blind := (d.map DispenseRec.blind).getD false,
    unpriced := (d.map DispenseRec.unpriced).getD false,
    operatorPending := (s.pp.pendingOp.get h).isSome, preset := s.au.preset.get h,
    readCode := if hc.state = .identifying then (s.tiu.get h).code else none,
    askingPeers := decide (s.mt.wait.get h ≠ .none), shown := hc.shown,
    proveShown := hc.proveShown, theta := mu.dispense.map MuDispense.theta, tempHeld := (mu.dispense.map MuDispense.held).getD false,
    reverses := (mu.dispense.map MuDispense.reverses).getD 0, rate := mu.lastRate,
    tagNotSeen := hc.tagNotSeen, pumpHeld := s.pump.waiting.get h, allowance := hc.allowanceShown,
    factorNotStored := hc.factorNotStored }

/-- A request of a kind is on the waiting list. -/
def waitingFor (s : State) (p : WaitReq → Bool) : Bool := s.ju.waiting.any p

/-- The site line (R210 and the alarms of every chapter). "Price book not switched" stands in BLOCKED, whatever led
there (log 51). One flag stands for "power failing" (R196) and "power failing: restart" (R206): the warning (log 75). -/
def siteLine (s : State) : SiteLine :=
  { starting := decide (s.power = .startUp), powerFailing := s.warned, book := bookCl s.su.book,
    available := availableGiven s, cover := cover s, claim := s.su.claim, position := queuePosition s,
    link := s.lc.link, pump := s.pump.state, budget := s.pump.level, selected := s.pp.selected,
    key := s.pp.key, supervisor := s.pp.authority, digits := s.au.digits,
    notConfigured := !s.cfg.configured, storeFault := s.sc.fault,
    gaugeFault := decide (s.su.gauge = .fault), lossSuspect := s.su.loss,
    journalLow := decide (s.ju.free < 64), journalFull := decide (s.ju.free < 3),
    recordWaiting := !s.ju.waiting.isEmpty,
    adjustWaiting := waitingFor s (fun r => match r with | .adjust _ _ => true | _ => false),
    proveWaiting := waitingFor s (fun r => match r with | .prove _ => true | _ => false),
    noPriceBook := s.pbu.banks.activeBook.isNone,
    priceBookWaiting := decide (s.pbu.switchState = .waiting),
    priceBookNotSwitched := decide (s.pbu.switchState = .blocked),
    valveNotClosing := ⟨s.hc.a.valveAlarm, s.hc.b.valveAlarm⟩, stockCheckSkipped := s.su.checkSkipped,
    deliveryNotRecorded := (match s.su.notRecordedUntil with | some t => decide (s.now < t) | none => false),
    overCapacity := s.su.overCapacity, panelLost := decide (0 < s.pp.absences),
    provePhase := s.prove.phase,
    proveVm := if s.prove.phase = .reading then s.prove.summary.map Summary.gross else none,
    prompt := s.pp.prompt.map Prod.fst }

/-- A TIU's figures on the diagnostic page (section 2.3). -/
def tiuFigures (t : Tiu) : TiuFigures :=
  { busy := t.busy, code := t.code, present := t.present, misses := t.misses,
    generation := t.record.map (fun r => r.history.generation), headErrors := t.headErrors }

/-- An MU's figures on the diagnostic page. -/
def muFigures (mu : Mu) : MuFigures :=
  { limitsDefaulted := mu.limitsDefaulted, lastTemp := mu.lastTemp, sampleBad := mu.sampleBad,
    stray := mu.stray, reverse := mu.reverse, mismatch := mu.mismatch, openRefused := mu.openRefused,
    closeRefused := mu.closeRefused }

/-- The span of the level history (R175). -/
def historySpan (l : List Nat) : Option Nat :=
  if l.isEmpty then none else some (l.foldl max 0 - l.foldl min 1000000)

/-- The number of the first missing strapping point, when given points follow it (R198). -/
def strapGap (points : List (Option Nat × Option Nat)) : Option Nat :=
  let n := (strapTable points).length
  if (points.drop (n + 1)).any (fun p => p.1.isSome && p.2.isSome) then some (n + 1) else none

/-- The counters and figures of the diagnostic page (R210). -/
def diagnostics (s : State) : Diagnostics :=
  { counters := s.lc.counters, sinceHeard := s.lc.lastHeard.map (fun t => (s.now - t) / sec 1),
    startNumber := s.lc.startNumber, claims := s.lc.claims.length,
    tiu := ⟨tiuFigures s.tiu.a, tiuFigures s.tiu.b⟩, entriesInUse := s.mt.entries.length,
    evictions := s.mt.evictions, mu := ⟨muFigures s.mu.a, muFigures s.mu.b⟩, freeSlots := s.ju.free,
    counter := s.ju.counter, mark := s.ju.mark, highestClosed := s.ju.highestClosed,
    uncollected := s.ju.counter - s.ju.mark, offer := s.ju.offer.map Offer.number,
    reoffers := s.ju.reoffers, rollover := s.ju.rollover, markAhead := s.ju.markAhead,
    openRefused := s.ju.openRefused, withdrawRefused := s.ju.withdrawRefused, banks := s.pbu.banks,
    ignoredBook := s.pbu.ignoredBook, badBook := s.pbu.badBook, lastLevel := s.su.lastLevel,
    tankTemp := s.su.lastTemp, standard := s.su.standard, historySpan := historySpan s.su.history,
    unsettled := firstUnsettled s, lastOutcome := s.su.lastOutcome, gaugeBad := s.su.gaugeBad,
    strapClamp := s.su.strapClamp, badDelivery := s.su.badDelivery,
    duplicateDelivery := s.su.duplicateDelivery, notRecorded := s.su.notRecorded,
    lastDelivery := s.su.lastDelivery, lastProveEnd := s.su.proveEnd, pairsRead := s.cfg.pairsRead,
    rejected := s.cfg.rejected, firstRejected := s.cfg.firstRejected, incomplete := s.cfg.incomplete,
    configured := s.cfg.configured, memoryNotRead := s.cfg.notRead, strapInvalid := !s.su.strapUsable,
    strapGap := strapGap s.cfg.params.strapPoints, failures := s.sc.failures, lastFailed := s.sc.lastFailed,
    damaged := s.sc.damaged.filter (fun a => match a with | .ringPosition _ => false | _ => true),
    panelBad := s.pp.panelBad, absences := s.pp.absences }

/-! ### Messages from the part (R210, R214) -/

/-- PP sends a message under its own next number; `sent` holds the lines of the present command. -/
def sendOut (content : PanelOut) (s : State) : State :=
  { s with pp := { s.pp with
      sent := s.pp.sent ++ [panelLine s.pp.outNumber content], outNumber := s.pp.outNumber + 1 } }

/-- What the last command sent is set aside before a command of the panel line. -/
def clearSent (s : State) : State := { s with pp := { s.pp with sent := [] } }

/-- PP sends a hose record. -/
def sendHose (h : Hose) (s : State) : State :=
  let r := hoseRecord s h
  let s1 := sendOut (.hoseRecord h r) s
  { s1 with pp := { s1.pp with hoseSent := s1.pp.hoseSent.set h (some { record := r, sentAt := s.now }) } }

/-- PP sends the site line. -/
def sendSite (s : State) : State :=
  let r := siteLine s
  let s1 := sendOut (.siteLine r) s
  { s1 with pp := { s1.pp with siteSent := some { record := r, sentAt := s.now } } }

/-- PP sends a diagnostic page. -/
def sendPage (page : Byte) (s : State) : State :=
  let d := diagnostics s
  let s1 := sendOut (.diagnosticPage page d) s
  { s1 with pp := { s1.pp with pageSent := some { record := (page, d), sentAt := s.now } } }

/-- Every page asked for goes with the next records (R214); the requests are then met. -/
def sendPagesDue (s : State) : State :=
  let s1 := s.pp.pagesDue.foldl (fun u page => sendPage page u) s
  { s1 with pp := { s1.pp with pagesDue := [] } }

/-- The page that the panel shows: the one last named, or after a page 0 the one asked for and not yet sent
(log 53). -/
def pageShown (pp : Pp) : Option Byte := if pp.page = 0 then pp.pagesDue.getLast? else some pp.page

/-- The pages that go when the page shown goes: those asked for and, unless it is among them, the page shown. -/
def pagesToGo (pp : Pp) : List Byte :=
  match pageShown pp with
  | some page => if pp.pagesDue.contains page then pp.pagesDue else pp.pagesDue ++ [page]
  | none => pp.pagesDue

/-- The page shown goes again at the refresh (R210). -/
def sendPageShown (s : State) : State :=
  sendPagesDue { s with pp := { s.pp with pagesDue := pagesToGo s.pp } }

/-- The inspect page goes for as long as it is open (R214). -/
def sendInspect (s : State) : State :=
  if s.inspect.closeAt.isSome then sendOut (.inspect s.inspect.sub s.inspect.value) s else s

/-- Every display record (R209, R210), in an order that is the model's (log 62). -/
def sendAll (s : State) : State := sendInspect (sendPageShown (sendSite (sendHose .b (sendHose .a s))))

/-- When a changed record may go: 100 ms after it last went (R210). -/
def mayGoAt {α : Type} [DecidableEq α] (current : α) (last : Option (Sent α)) : Option Nat :=
  match last with
  | none => some 0
  | some x => if x.record = current then none else some (x.sentAt + ms 100)

/-- DISPLAY_RECORD_SEND by its target (R210). During start-up only the site line goes (R196). The resend of each second
sends every record, also one that went less than 100 ms before (log 69). -/
def displaySend (target : DisplayTarget) (s : State) : State :=
  match target, s.power with
  | _, .off => s
  | .siteLine, .startUp | .refresh, .startUp => sendSite (clearSent s)
  | .hoseRecord _, .startUp | .diagnosticPage, .startUp => s
  | .hoseRecord h, .released =>
    atDue (mayGoAt (hoseRecord s h) (s.pp.hoseSent.get h)) s
      (fun s => sendInspect (sendPagesDue (sendHose h (clearSent s))))
  | .siteLine, .released =>
    atDue (mayGoAt (siteLine s) s.pp.siteSent) s
      (fun s => sendInspect (sendPagesDue (sendSite (clearSent s))))
  | .diagnosticPage, .released =>
    match pageShown s.pp with
    | some page =>
      atDue (mayGoAt (page, diagnostics s) s.pp.pageSent) s (fun s => sendInspect (sendPageShown (clearSent s)))
    | none => s
  | .refresh, .released =>
    atDue (some s.pp.refreshAt) s (fun s =>
      let s1 := sendAll (clearSent s)
      { s1 with pp := { s1.pp with refreshAt := s1.pp.refreshAt + sec 1 } })

/-- DISPLAY_RECORD_SEND (R210, R196). -/
def execDisplayRecordSend (target : DisplayTarget) (s : State) : Result := .next (displaySend target s)

/-- PROMPT_EXPIRY: a prompt has stood for 3 s (R210). -/
def execPromptExpiry (s : State) : Result :=
  live s (fun s => atDue (s.pp.prompt.map Prod.snd) s (fun s => { s with pp := { s.pp with prompt := none } }))

end Sys2Proof.Machine
end

