-- ==== Sys2Proof/Machine/Panel.lean ====
section
/-! DEFINITION. The panel line's commands (sections 2.4 and 11.6): messages acknowledged and taken once, the
keys and the key reader passed to the blocks that act on them. -/

namespace Sys2Proof.Machine

/-! ### Keys (R80, R116, R129 to R133, R138) -/

/-- The value of the preset entry's digits, in the order keyed. -/
def entryValue (digits : List Nat) : Nat := digits.foldl (fun acc d => acc * 10 + d) 0

/-- A digit key; a seventh digit is discarded (R80). -/
def digitKey (d : Nat) (s : State) : State :=
  if s.au.digits.length < 6 then { s with au := { s.au with digits := s.au.digits ++ [d] } } else s

/-- The preset entry is emptied. -/
def emptyEntry (s : State) : State := { s with au := { s.au with digits := [] } }

/-- The inspect page closes (R138). -/
def closeInspect (s : State) : State := { s with inspect := { s.inspect with closeAt := none } }

/-- A HOSE key: the entry, the selection, the inspect page, and meter proving in SELECT (R208). -/
def selectKey (h : Hose) (s : State) : State :=
  let s1 := closeInspect (emptyEntry s)
  proveHose h { s1 with pp := { s1.pp with selected := h } }

/-- ENTER (R80, R130, R133). -/
def enterKey (s : State) : State :=
  let v := entryValue s.au.digits
  let h := s.pp.selected
  if s.au.digits.isEmpty then s
  else if (s.hc.get h).state = .proving then proveEnter v (emptyEntry s)
  else if v < 200 then prompt .presetTooSmall (emptyEntry s)
  else presetValue h v (emptyEntry s)

/-- CLEAR (R80, R130, R133). -/
def clearKey (s : State) : State :=
  let h := s.pp.selected
  if s.au.digits.isEmpty = false then emptyEntry s
  else
    match (s.hc.get h).state with
    | .proving => proveClear s
    | .idle | .identifying | .awaitKey | .querying =>
      { s with au := { s.au with preset := s.au.preset.set h none } }
    | _ => s

/-- STOP for the selected hose (R116). -/
def stopKey (s : State) : State :=
  let h := s.pp.selected
  match (s.hc.get h).state with
  | .authorised | .flowing => hoseEnd h .operatorStop s
  | .proving => if proveFlows h s then hoseEnd h .operatorStop s else prompt .nothingToStop s
  | _ => prompt .nothingToStop s

/-- A key that needs supervisor authority (R40). -/
def withAuthority (s : State) (f : Nat → State → State) : State :=
  if s.pp.authority then f (s.pp.key.getD 0) s else prompt .supervisorKeyRequired s

/-- The sub-address an INSPECT press chooses (R138). -/
def inspectSub (s : State) : Nat :=
  if s.au.digits.isEmpty = false then entryValue s.au.digits
  else if s.inspect.closeAt.isSome then (s.inspect.sub + 1) % 256 else 0

/-- INSPECT with authority held (R138, R139); a sub-address past 255 shows as 255, which has no value either
(log 30). -/
def inspectKey (s : State) : State :=
  let sub := inspectSub s
  { emptyEntry s with inspect :=
      { closeAt := some (s.now + sec 30), sub := min sub 255, value := inspectValue s sub } }

/-! ### The key reader (R37) -/

/-- An id is on the supervisor list; an entry of 0 matches no key (R40). -/
def isSupervisor (p : Params) (id : Nat) : Bool :=
  decide (id ≠ 0) && p.supervisors.any (fun w => w.1 * 65536 + w.2 == id)

/-- A key is presented (R37, R39, R70). -/
def keyPresent (id : Nat) (s : State) : State :=
  if id = 0 then prompt .keyNotRead s
  else
    keyForHose s.pp.selected { s with pp := { s.pp with
      key := some id, authority := isSupervisor s.cfg.params id,
      pendingOp := s.pp.pendingOp.set s.pp.selected (some id) } }

/-- A key is removed (R37). -/
def keyRemove (s : State) : State := { s with pp := { s.pp with key := none, authority := false } }

/-! ### Messages (R207, R209) -/

/-- The pages still to be sent after one more is asked for: each once, the one last asked for at the end. -/
def addPage (page : Byte) (due : List Byte) : List Byte :=
  if page = 0 then due else due.filter (fun p => p != page) ++ [page]

/-- A PANEL_STATUS names the page that the panel shows, or none; the pages asked for before stay asked for (R214,
log 53). -/
def askPage (page : Byte) (s : State) : State :=
  { s with pp := { s.pp with page := page, pagesDue := addPage page s.pp.pagesDue } }

/-- What a message that is taken does (R208). -/
def panelDeal (m : PanelIn) (s : State) : State :=
  match m with
  | .digit d => digitKey d s
  | .hoseKey h => selectKey h s
  | .enter => enterKey s
  | .clear => clearKey s
  | .stop => stopKey s
  | .prove => withAuthority s proveKey
  | .ack => withAuthority s (fun _ => ackKey)
  | .adopt => withAuthority s adoptKey
  | .inspect => withAuthority s (fun _ => inspectKey)
  | .keyPresented id => keyPresent id.toNat s
  | .keyRemoved => keyRemove s
  | .panelStatus page => askPage page s

/-- A message that passes its check is acknowledged (R207) and shows the panel alive (R209). -/
def acknowledge (num : Byte) (s : State) : State :=
  let s1 := sendOut (.acknowledge num) (clearSent s)
  { s1 with pp := { s1.pp with lastGood := s.now } }

/-- The panel becomes present with a message taken; every display record then goes at once (R209). -/
def becomePresent (s : State) : State :=
  if s.pp.present then s else sendAll { s with pp := { s.pp with present := true } }

/-- A message with a known type and key: acknowledged, and taken when its number is new (R207). The records for a panel
that becomes present with it go before it is dealt with (log 68). -/
def panelMessage (num : Byte) (m : PanelIn) (s : State) : State :=
  let s1 := acknowledge num s
  if s1.pp.lastTaken = some num then s1
  else panelDeal m (becomePresent { s1 with pp := { s1.pp with lastTaken := some num } })

/-- DIGIT (R80). -/
def execDigit (num : Byte) (d : Nat) (s : State) : Result := live s (panelMessage num (.digit d))

/-- HOSE_KEY (R38, R80, R129, R138). -/
def execHoseKey (num : Byte) (h : Hose) (s : State) : Result := live s (panelMessage num (.hoseKey h))

/-- ENTER (R80, R130, R133). -/
def execEnter (num : Byte) (s : State) : Result := live s (panelMessage num .enter)

/-- CLEAR (R80, R130, R133). -/
def execClear (num : Byte) (s : State) : Result := live s (panelMessage num .clear)

/-- STOP (R116). -/
def execStop (num : Byte) (s : State) : Result := live s (panelMessage num .stop)

/-- PROVE (R129). -/
def execProve (num : Byte) (s : State) : Result := live s (panelMessage num .prove)

/-- ACK (R185). -/
def execAck (num : Byte) (s : State) : Result := live s (panelMessage num .ack)

/-- ADOPT (R186). -/
def execAdopt (num : Byte) (s : State) : Result := live s (panelMessage num .adopt)

/-- INSPECT (R138). -/
def execInspect (num : Byte) (s : State) : Result := live s (panelMessage num .inspect)

/-- KEY_PRESENTED (R37). -/
def execKeyPresented (num : Byte) (operator : BitVec 32) (s : State) : Result :=
  live s (panelMessage num (.keyPresented operator))

/-- KEY_REMOVED (R37). -/
def execKeyRemoved (num : Byte) (s : State) : Result := live s (panelMessage num .keyRemoved)

/-- PANEL_STATUS (R209, R214). -/
def execPanelStatus (num : Byte) (page : Byte) (s : State) : Result :=
  live s (panelMessage num (.panelStatus page))

/-- A message as its bytes, judged (R207, R214). -/
def panelBytes (message : List Byte) (s : State) : State :=
  match judgePanel message with
  | .bad => { s with pp := { s.pp with panelBad := satInc max16 s.pp.panelBad } }
  | .unknown num => acknowledge num s
  | .known num m => panelMessage num m s

/-- PANEL_BAD: a message whose check fails, or whose type or key code is unknown (R207, R214, log 32). -/
def execPanelBad (message : List Byte) (s : State) : Result := live s (panelBytes message)

/-- The panel becomes absent, and the key state is as on a key removed (R209). -/
def panelLost (s : State) : State :=
  keyRemove { s with pp := { s.pp with present := false, absences := s.pp.absences + 1 } }

/-- PANEL_ABSENT: 3 s with no good message (R209). -/
def execPanelAbsent (s : State) : Result :=
  live s (fun s => atDue (if s.pp.present then some (s.pp.lastGood + sec 3) else none) s panelLost)

/-- INSPECT_PAGE_TIMEOUT: 30 s with no INSPECT press (R138). -/
def execInspectPageTimeout (s : State) : Result :=
  live s (fun s => atDue s.inspect.closeAt s closeInspect)

end Sys2Proof.Machine
end

