-- ==== Sys2Proof/Machine/StoreEnd.lean ====
section
/-! DEFINITION. The end of a store write (R201): what it leaves in the store, the report to its requester,
and the next write. -/

namespace Sys2Proof.Machine

/-- A FAILED write sets STORE_FAULT and is counted with its area (R202). -/
def storeFailed (area : AreaName) (s : State) : State :=
  { s with sc := { s.sc with fault := true, failures := satInc max16 s.sc.failures, lastFailed := some area } }

/-- What the write leaves in the store (R202). -/
def writeOutcome (w : WriteContents) (good : Bool) (s : State) : State :=
  if good then { s with store := s.store.commit w } else storeFailed w.area s

/-- SU hears of the end of a DELIVERY or ADJUST record's write (R203). -/
def settleSequence (n : Nat) (s : State) : State :=
  askStock { s with su := { s.su with settledSeq := max s.su.settledSeq n } }

/-- Which closed DISPENSE record of a hose has no good closed write (R203), after a write of one. -/
def unsavedAfter (old : Option JRec) (r : JRec) (good : Bool) : Option JRec :=
  if good then (match old with | some x => if x.number = r.number then none else old | none => none)
  else some r

/-- The write of a DISPENSE record's closed contents has ended (R149): the hose lets the record go and is
told. -/
def dispenseClosed (r : JRec) (h : Hose) (good : Bool) (s : State) : State :=
  let s1 := { s with ju := { s.ju with
    unsaved := s.ju.unsaved.set h (unsavedAfter (s.ju.unsaved.get h) r good) } }
  if s.ju.slots.get h = some (.numbered r.number) then
    closeEnded h { s1 with ju := { s1.ju with slots := s1.ju.slots.set h none } }
  else s1

/-- The report of a record's write to the block that asked for the record (R149 to R151). -/
def reportRecord (r : JRec) (good : Bool) (s : State) : State :=
  match r.body with
  | .dispense d => dispenseClosed r d.hose good s
  | .delivery _ _ _ _ _ | .adjust _ _ => settleSequence r.number s
  | .prove _ => proveRecordEnd r.number good s
  | .priceBook _ _ => switchEnd good s
  | .refusal _ _ _ _ | .stockCheck _ _ _ _ _ | .lost => s

/-- The write of a record's closed contents has ended: it becomes CLOSED, and one at or below the mark is let go
(R152, R205). -/
def Ju.closedWritten (ju : Ju) (n : Nat) : Ju :=
  { ju.upd n (fun x => { x with state := .closed }) with old := ju.old.filter (fun r => r.number != n) }

/-- The write of a record's closed contents has ended: the block that asked for it is told, and JU chooses an offer
(R149, R152, R154). -/
def recordWritten (n : Nat) (good : Bool) (s : State) : State :=
  match s.ju.find n with
  | none => s
  | some r => chooseOffer (reportRecord r good { s with ju := s.ju.closedWritten n })

/-- JU takes the end of its write (R152). -/
def journalWritten (good : Bool) (s : State) : State :=
  let s1 := { s with ju := { s.ju with writing := none } }
  match s.ju.writing with
  | some (.record n, true) => recordWritten n good s1
  | _ => s1

/-- SC reports the end of a write to its requester (R201). -/
def reportWrite (r : Requester) (good : Bool) (s : State) : State :=
  match r with
  | .ju => journalWritten good s
  | .proving => proveFactorEnd good s
  | .su | .pbu | .lc | .hc _ => s

/-- A requester with more to write asks again (R152, R164, R180). -/
def askAgain (r : Requester) (s : State) : State :=
  match r with
  | .ju => askJournal s
  | .su => if s.su.again then scAsk .su { s with su := { s.su with again := false } } else s
  | .pbu => if s.pbu.again then scAsk .pbu { s with pbu := { s.pbu with again := false } } else s
  | .lc | .hc _ | .proving => s

/-- A store write ends: the store, the report, the requester's next request, and the next write (R201). -/
def storeWriteEnds (good : Bool) (s : State) : State :=
  match s.sc.current with
  | none => s
  | some (r, w) =>
    let s1 := reportWrite r good (writeOutcome w good s)
    scKick (askAgain r { s1 with sc := { s1.sc with current := none } })

/-- STORE_WRITE_END (R201, R202); the writes of recovery end during start-up (R196). -/
def execStoreWriteEnd (good : Bool) (s : State) : Result :=
  .next (if s.power = .off then s else storeWriteEnds good s)

end Sys2Proof.Machine
end

