-- ==== Sys2Proof/Machine/Channel.lean ====
section
/-! DEFINITION. The commands of the site link (chapter 1): the channel, frames, link times and the site
clock. -/

namespace Sys2Proof.Machine

/-! ### The channel (R3 to R6) -/

/-- The idle gap is met: counting starts or resumes, and a count of zero sends at once (R3, R4). -/
def gapMetNow (s : State) : State :=
  let s1 := { s with lc := { s.lc with
    gapMet := true,
    countdown := s.lc.countdown.map (fun c => { c with counting := true, slotFrom := s.now }) } }
  match s.lc.countdown with
  | some c => if c.left = 0 then startTx s1 else s1
  | none => s1

/-- When the idle gap will be met: 3 ms after the channel became idle (R3). -/
def gapDue (s : State) : Option Nat :=
  if s.lc.idle ∧ s.lc.gapMet = false then some (s.lc.gapFrom + ms 3) else none

/-- IDLE_GAP (R3, R4). -/
def execIdleGap (s : State) : Result := live s (fun s => atDue (gapDue s) s gapMetNow)

/-- When the slot in progress ends (R4). -/
def slotDue (s : State) : Option Nat :=
  match s.lc.countdown with
  | some c => if c.counting then some (c.slotFrom + ms 4) else none
  | none => none

/-- A slot of unbroken idle channel lowers the count by one; at zero the transmission begins (R4, R5). -/
def slotPasses (s : State) : State :=
  match s.lc.countdown with
  | none => s
  | some c =>
    let s1 := { s with lc := { s.lc with
      countdown := some { c with left := c.left - 1, slotFrom := c.slotFrom + ms 4 } } }
    if c.left ≤ 1 then startTx s1 else s1

/-- BACKOFF_SLOT (R4). -/
def execBackoffSlot (s : State) : Result := live s (fun s => atDue (slotDue s) s slotPasses)

/-- Carrier sense becomes active (R3, R4, R6, R12). -/
def carrierUp (s : State) : State :=
  { s with lc := { s.lc with
      carrier := true, rx := .receiving, gapMet := false,
      countdown := s.lc.countdown.map (fun c => { c with counting := false }),
      spacing := s.lc.spacing.pause s.now } }

/-- CARRIER_SENSE_ACTIVE (R3, R4, R12). -/
def execCarrierSenseActive (s : State) : Result :=
  live s (fun s => if s.lc.carrier then s else carrierUp s)

/-- Bytes that the carrier brought and LC has not judged, when there are any (R12, log 11). -/
def judgeRest (rest : List Byte) (s : State) : State := if rest.isEmpty then s else receiveLine rest s

/-- Carrier sense falls (R3, R6, R12). -/
def carrierDown (rest : List Byte) (s : State) : State :=
  let s1 := judgeRest rest s
  { s1 with lc := { s1.lc with
      carrier := false, rx := .quiet, gapMet := false, gapFrom := s1.now,
      spacing := if s1.lc.tx.isNone then { s1.lc.spacing with idleSince := some s1.now } else s1.lc.spacing } }

/-- CARRIER_SENSE_INACTIVE (R3, R12). -/
def execCarrierSenseInactive (rest : List Byte) (s : State) : Result :=
  live s (fun s => if s.lc.carrier then carrierDown rest s else s)

/-- A bit-time in the unit of the elapsed count, by the configured bit rate (R1). -/
def bitTime (s : State) : Nat :=
  match s.cfg.params.bitRate with
  | 0 => 20
  | 1 => 10
  | _ => 5

/-- A frame's time on the line: its length byte and frame bytes, ten bit-times each (R1). -/
def lineTime (s : State) (f : TxFrame) : Nat := (f.bytes.length + 1) * 10 * bitTime s

/-- The channel after the part's own transmission (R3, R5, R6). -/
def channelAfterTx (f : TxFrame) (s : State) : State :=
  let since := if s.lc.carrier then none else some s.now
  { s with lc := { s.lc with
      tx := none, gapMet := false, gapFrom := s.now,
      spacing := if f.cls = 4 then { held := true, count := 0, idleTotal := 0, idleSince := since }
                 else { s.lc.spacing with idleSince := since } } }

/-- LC reports a frame SENT to the block that asked for it (R11). -/
def reportSent (f : TxFrame) (s : State) : State :=
  match f.owner with
  | .hello =>
    if s.lc.link = .announce then { s with lc := { s.lc with settleAt := some (s.now + sec 2) } } else s
  | .query h id => querySent h id s
  | .offer serial index fragments => fragmentSent serial index fragments s
  | .status | .draw | .answer => s

/-- The last byte of the part's frame has gone (R5). The channel is taken as after the frame, with a class 4
frame's record spacing, before SENT is reported (log 43). -/
def transmissionEnds (f : TxFrame) (s : State) : State := lcKick (reportSent f (channelAfterTx f s))

/-- TRANSMISSION_END (R5). -/
def execTransmissionEnd (s : State) : Result :=
  live s (fun s =>
    match s.lc.tx with
    | some (f, began) => atDue (some (began + lineTime s f)) s (transmissionEnds f)
    | none => s)

/-- When the idle total of record spacing reaches 250 ms (R6). -/
def spacingDue (s : State) : Option Nat :=
  match s.lc.spacing.held, s.lc.spacing.idleSince with
  | true, some t => some (t + (ms 250 - s.lc.spacing.idleTotal))
  | _, _ => none

/-- Record spacing releases on its idle total (R6). -/
def spacingReleases (s : State) : State :=
  lcKick { s with lc := { s.lc with spacing := { s.lc.spacing with held := false, idleTotal := ms 250 } } }

/-- RECORD_SPACING_IDLE_TOTAL (R6). -/
def execRecordSpacingIdleTotal (s : State) : Result :=
  live s (fun s => atDue (spacingDue s) s spacingReleases)

/-! ### Frames (R12 to R14) -/

/-- BAD_FRAME: a frame as its bytes (R13). -/
def execBadFrame (line : List Byte) (s : State) : Result := live s (receiveLine line)

/-- HELLO (R14, R21). -/
def execHello (hd : Header) (start : BitVec 16) (product : Byte) (s : State) : Result :=
  live s (receiveFields hd (.hello start product))

/-- STATUS (R14, R21, R190). -/
def execStatus (hd : Header) (b : StatusBody) (s : State) : Result := live s (receiveFields hd (.status b))

/-- DRAW (R14, R52). -/
def execDraw (hd : Header) (machine : BitVec 24) (d : WireDraw) (s : State) : Result :=
  live s (receiveFields hd (.draw machine d))

/-- QUERY (R14, R62). -/
def execQuery (hd : Header) (machine : BitVec 24) (window : Byte) (s : State) : Result :=
  live s (receiveFields hd (.query machine window))

/-- ANSWER (R14, R53). -/
def execAnswer (hd : Header) (machine : BitVec 24) (draws : List WireDraw) (s : State) : Result :=
  live s (receiveFields hd (.answer machine draws))

/-- RECORD (R14). -/
def execRecord (hd : Header) (number : BitVec 32) (index : Byte) (chunk : List Byte) (s : State) : Result :=
  live s (receiveFields hd (.record number index chunk))

/-- MARK (R14, R26, R159). -/
def execMark (hd : Header) (target : Byte) (number time : BitVec 32) (s : State) : Result :=
  live s (receiveFields hd (.mark target number time))

/-- PRICE (R14 to R16, R166 to R168). -/
def execPrice (hd : Header) (index : Byte) (b : PriceBody) (s : State) : Result :=
  live s (receiveFields hd (.price index b))

/-- DELIVERY (R14, R192, R193). -/
def execDelivery (hd : Header) (target : Byte) (number : BitVec 16) (volume : BitVec 24) (time : BitVec 32)
    (s : State) : Result :=
  live s (receiveFields hd (.delivery target number volume time))

/-- REASSEMBLY_TIME_LIMIT: 2 s with no fragment accepted (R16). -/
def execReassemblyTimeLimit (s : State) : Result :=
  live s (fun s => atDue (s.lc.reassembly.map (fun r => r.lastAt + sec 2)) s abandonReassembly)

/-! ### Link times (R17 to R22) -/

/-- A HELLO frame of the part (R18, R212). -/
def helloFrame (s : State) : TxFrame :=
  { cls := 1, owner := .hello,
    bytes := frameBytes (wholeHeader (stationId s))
      (.hello s.lc.startNumber (BitVec.ofNat 8 s.cfg.params.product)) }

/-- A link timer, while the link is in its state and before the warning (R23). -/
def linkDue (s : State) (states : LinkState → Bool) (due : Option Nat) : Option Nat :=
  if s.warned = false ∧ states s.lc.link then due else none

/-- The listen time ends: ANNOUNCE, with a HELLO (R17, R18). -/
def announce (s : State) : State :=
  let s1 := { s with lc := { s.lc with link := .announce, listenAt := none } }
  (enqueueFrame (helloFrame s1) s1).2

/-- LISTEN_TIME (R17, R18). -/
def execListenTime (s : State) : Result :=
  live s (fun s => atDue (linkDue s (· == .listen) s.lc.listenAt) s announce)

/-- The settle time ends: JOINED, the first STATUS, and offering starts to run (R19, R22, R154). -/
def join (s : State) : State :=
  chooseOffer (makeStatus { s with lc := { s.lc with link := .joined, settleAt := none, joinedAt := s.now } })

/-- SETTLE_TIME (R19, R22). -/
def execSettleTime (s : State) : Result :=
  live s (fun s => atDue (linkDue s (· == .announce) s.lc.settleAt) s join)

/-- ISOLATION_TIME: 120 s from the last heard frame or the entry to JOINED (R20). -/
def execIsolationTime (s : State) : Result :=
  live s (fun s =>
    atDue (linkDue s (· == .joined) (some (max (s.lc.lastHeard.getD 0) s.lc.joinedAt + sec 120))) s
      (fun s => { s with lc := { s.lc with link := .isolated } }))

/-- The status period in force (R22). -/
def statusPeriod (s : State) : Nat := if s.su.claim then sec 10 else sec 30

/-- STATUS_PERIOD (R22). -/
def execStatusPeriod (s : State) : Result :=
  live s (fun s =>
    atDue (linkDue s (fun l => l == .joined || l == .isolated)
      (s.lc.lastStatusAt.map (fun t => t + statusPeriod s))) s makeStatus)

/-! ### The site clock and the claims list (R24 to R26, R190) -/

/-- SITE_CLOCK_COUNT (R24, R169). -/
def execSiteClockCount (s : State) : Result :=
  live s (fun s => atDue (if s.lc.hold.isNone then some s.lc.nextCount else none) s clockCount)

/-- A hold ends: counting resumes, and the next count comes one second later (R26, R169). -/
def holdEnds (due : Nat) (s : State) : State :=
  switchTest { s with lc := { s.lc with hold := none, nextCount := due + sec 1 } }

/-- CLOCK_HOLD_END (R26). -/
def execClockHoldEnd (s : State) : Result :=
  live s (fun s =>
    match s.lc.hold with
    | some due => holdEnds due (s.reach due)
    | none => s)

/-- CLOCK_STORING_PERIOD (R25). -/
def execClockStoringPeriod (s : State) : Result :=
  live s (fun s => atDue (some s.lc.nextStoring) s (fun s =>
    scAsk .lc { s with lc := { s.lc with nextStoring := s.lc.nextStoring + sec 60 } }))

/-- When a station's entry of the claims list expires (R190). -/
def claimDue (s : State) (station : Nat) : Option Nat :=
  (s.lc.claims.find? (fun c => c.station == station)).map (fun c => c.heardAt + sec 30)

/-- CLAIMS_LIST_ENTRY_EXPIRY (R190). -/
def execClaimsListEntryExpiry (station : Nat) (s : State) : Result :=
  live s (fun s => atDue (claimDue s station) s (fun s =>
    { s with lc := { s.lc with claims := s.lc.claims.filter (fun c => c.station != station) } }))

end Sys2Proof.Machine
end

