-- ==== Sys2Proof/Machine/Nozzles.lean ====
section
/-! DEFINITION. The commands of the hoses, their sessions, the pump and the prove (chapters 3, 4, 6, 7): the
holster switches and the time-driven commands. -/

namespace Sys2Proof.Machine

/-! ### Holster switches (R106) -/

/-- A lift with the nozzle in its holster (R106, R38, R65, R130). -/
def lifted (h : Hose) (s : State) : State :=
  let s1 := { s with pp := { s.pp with selected := h } }.updHc h (fun hc => { hc with nozzleOut := true })
  match (s.hc.get h).state with
  | .idle =>
    if s.warned then
      s1.updHc h (fun hc => { hc with state := .hangWait, shown := .powerFailing })
    else startSession h (s1.updHc h (fun hc => { hc with state := .identifying }))
  | .proving => if s.prove.hose = some h then proveReadyTest s1 else s1
  | _ => s1

/-- NOZZLE_LIFT (R106); one reported with the nozzle out is discarded. -/
def execNozzleLift (h : Hose) (s : State) : Result :=
  live s (fun s => if (s.hc.get h).nozzleOut then s else lifted h s)

/-- A hang with the nozzle out (R106); what the display shows until the nozzle is hung goes (log 38). -/
def hung (h : Hose) (s : State) : State :=
  let s1 := s.updHc h (fun hc =>
    { hc with nozzleOut := false, shown := .nothing, proveShown := none, factorNotStored := false })
  match (s.hc.get h).state with
  | .identifying | .awaitKey | .querying => endSession h s1
  | .authorised | .flowing | .proving => hoseEnd h .nozzleHung s1
  | .stopping | .writing => s1.updHc h (fun hc => { hc with hungSinceEnd := true })
  | .hangWait => s1.updHc h (fun hc => { hc with state := .idle })
  | .idle => s1

/-- NOZZLE_HANG (R106); one reported with the nozzle in is discarded. -/
def execNozzleHang (h : Hose) (s : State) : Result :=
  live s (fun s => if (s.hc.get h).nozzleOut then hung h s else s)

/-! ### Sessions (R65, R66, R70) and query waits (R59, R60) -/

/-- A due time that holds in one hose state only. -/
def dueIn (s : State) (h : Hose) (state : HoseState) (due : Option Nat) : Option Nat :=
  if (s.hc.get h).state = state then due else none

/-- A whole second after the lift (R65). -/
def readSecond (h : Hose) (s : State) : State :=
  requestRead h (s.updSession h (fun se => { se with nextRead := se.nextRead.map (fun t => t + sec 1) }))

/-- READ_REQUEST_SECOND (R65). -/
def execReadRequestSecond (h : Hose) (s : State) : Result :=
  live s (fun s => atDue (dueIn s h .identifying (s.au.session.get h).nextRead) s (readSecond h))

/-- TAG_READ_TIME_LIMIT: 60 s with no READ_DONE (R66). -/
def execTagReadTimeLimit (h : Hose) (s : State) : Result :=
  live s (fun s =>
    atDue (dueIn s h .identifying ((s.au.session.get h).startAt.map (fun t => t + sec 60))) s
      (refuse h .tagUnreadable))

/-- KEY_WAIT_TIME_LIMIT: 30 s in AWAIT_KEY (R70). -/
def execKeyWaitTimeLimit (h : Hose) (s : State) : Result :=
  live s (fun s =>
    atDue (dueIn s h .awaitKey ((s.au.session.get h).keyWaitFrom.map (fun t => t + sec 30))) s
      (refuse h .keyRequired))

/-- QUERY_SEND_LIMIT: 10 s in SENDING (R59). -/
def execQuerySendLimit (h : Hose) (s : State) : Result :=
  live s (fun s =>
    match s.mt.wait.get h with
    | .sending m _ since => endWait h m (s.reach (since + sec 10))
    | _ => s)

/-- QUERY_ANSWER_TIME: the query wait parameter, in WAITING (R59, R60). -/
def execQueryAnswerTime (h : Hose) (s : State) : Result :=
  live s (fun s =>
    match s.mt.wait.get h with
    | .waiting m _ since => endWait h m (s.reach (since + sec s.cfg.params.queryWait))
    | _ => s)

/-! ### Dispense timers (R110, R114, R115, R117) -/

/-- NO_FLOW_TIMER: 60 s of pump joined with no first pulse (R110). -/
def execNoFlowTimer (h : Hose) (s : State) : Result :=
  live s (fun s => atDue (dueIn s h .authorised (s.hc.get h).noFlowAt) s (hoseEnd h .idleTimeout))

/-- IDLE_TIMER: 60 s with no pulse metered (R115, R131). -/
def execIdleTimer (h : Hose) (s : State) : Result :=
  live s (fun s => atDue (s.hc.get h).idleAt s (hoseEnd h .idleTimeout))

/-- A whole second after the entry to FLOWING (R114). -/
def probeSecond (h : Hose) (s : State) : State :=
  probe h (s.updHc h (fun hc => { hc with probeAt := hc.probeAt.map (fun t => t + sec 1) }))

/-- PROBE_SECOND (R114). -/
def execProbeSecond (h : Hose) (s : State) : Result :=
  live s (fun s => atDue (dueIn s h .flowing (s.hc.get h).probeAt) s (probeSecond h))

/-- The drain has ended (R117, R128). -/
def drained (h : Hose) (s : State) : State :=
  match (s.hc.get h).state with
  | .stopping => closeFromDrain h s
  | .proving => proveClose h s
  | _ => s

/-- DRAIN_END: 3 s with no pulse metered (R117). -/
def execDrainEnd (h : Hose) (s : State) : Result :=
  live s (fun s => atDue (s.hc.get h).drainAt s (drained h))

/-- DRAIN_TIME_LIMIT: 30 s of draining, with the alarm "valve not closing" (R117). -/
def execDrainTimeLimit (h : Hose) (s : State) : Result :=
  live s (fun s => atDue (s.hc.get h).drainLimitAt s (fun s =>
    drained h (s.updHc h (fun hc => { hc with valveAlarm := true }))))

/-! ### The pump (R124, R126) -/

/-- RUN_ON_TIMER (R124). -/
def execRunOnTimer (s : State) : Result :=
  live s (fun s => atDue (if s.pump.state = .runOn then s.pump.runOnAt else none) s (fun s =>
    { s with pump := { s.pump with state := .stopped, runOnAt := none } }))

/-- BUDGET_FALL (R126). -/
def execBudgetFall (s : State) : Result :=
  live s (fun s =>
    match s.pump.fallAt with
    | some due => budgetFalls due (s.reach due)
    | none => s)

/-! ### The prove (R129, R130, R133) -/

/-- The phase timer, in the phases it runs for. -/
def phaseDue (s : State) (p : ProvePhase → Bool) : Option Nat :=
  if p s.prove.phase then s.prove.timerAt else none

/-- PROVE_SELECT_TIME (R129). -/
def execProveSelectTime (s : State) : Result :=
  live s (fun s => atDue (phaseDue s (· == .select)) s proveCancel)

/-- PROVE_SIZE_TIME (R130). -/
def execProveSizeTime (s : State) : Result :=
  live s (fun s => atDue (phaseDue s (fun p => p == .size || p == .ready)) s proveCancel)

/-- PROVE_READING_TIME (R133). -/
def execProveReadingTime (s : State) : Result :=
  live s (fun s => atDue (phaseDue s (· == .reading)) s proveAbandon)

end Sys2Proof.Machine
end

