-- ==== Sys2Proof/Machine/Configuration.lean ====
section
/-! DEFINITION. The configuration download (section 11.2): word pairs, their ranges and what they set. -/

namespace Sys2Proof.Machine

/-- A value within a range, or none. -/
def inRange (lo hi v : Nat) : Option Nat := if lo ≤ v ∧ v ≤ hi then some v else none

/-- Blocks 2 and 3 (R198). -/
def HoseParams.accept (p : HoseParams) (index v : Nat) : Option HoseParams :=
  if index = 0 then (inRange 100 10000 v).map (fun x => { p with pulseWeight := x * 10 })
  else if index = 1 then (inRange 1 50 v).map (fun x => { p with windowN := x })
  else if index ≤ 5 then (inRange 1 9999 v).map (fun x => { p with limits := p.limits.set (index - 1) x })
  else if index ≤ 9 then
    (inRange 45000 55000 v).map (fun x => { p with factors := p.factors.set (index - 5) (x + 50000) })
  else if index = 10 then (inRange 0 2000 v).map (fun x => { p with alpha := x })
  else if index = 11 then (inRange 0 2000 v).map (fun x => { p with slowDown := x })
  else none

/-- Block 4 (R198). -/
def Params.acceptTank (p : Params) (index v : Nat) : Option Params :=
  match index with
  | 0 => (inRange 1000 60000 v).map (fun x => { p with tankCapacity := x })
  | 1 => (inRange 0 5000 v).map (fun x => { p with heel := x })
  | 2 => (inRange 0 50 v).map (fun x => { p with reservePercent := x })
  | 3 => (inRange 0 100 v).map (fun x => { p with reorderPercent := x })
  | 4 => (inRange 0 9999 v).map (fun x => { p with reorderCover := x })
  | 5 => (inRange 0 2000 v).map (fun x => { p with tankAlpha := x })
  | _ => none

/-- Block 5 (R198): levels at even indices, volumes at odd ones. -/
def Params.acceptPoint (p : Params) (index v : Nat) : Option Params :=
  let k := index / 2
  if 48 ≤ index then none
  else if index % 2 = 0 then
    (inRange 0 4000 v).map (fun x =>
      { p with strapPoints := p.strapPoints.modify k (fun q => (some x, q.2)) })
  else
    (inRange 0 65000 v).map (fun x =>
      { p with strapPoints := p.strapPoints.modify k (fun q => (q.1, some x)) })

/-- Block 7 (R198): high words at even indices, low words at odd ones. -/
def Params.acceptSupervisor (p : Params) (index v : Nat) : Option Params :=
  let k := index / 2
  if 16 ≤ index then none
  else if index % 2 = 0 then some { p with supervisors := p.supervisors.modify k (fun w => (v, w.2)) }
  else some { p with supervisors := p.supervisors.modify k (fun w => (w.1, v)) }

/-- A pair judged: the parameters with its value accepted, or none for a rejected pair (R198). -/
def Params.accept (p : Params) (block index v : Nat) : Option Params :=
  match block, index with
  | 0, 0 => (inRange 1 47 v).map (fun x => { p with station := some x })
  | 0, 1 => (inRange 1 15 v).map (fun x => { p with product := x })
  | 1, 0 => (inRange 0 2 v).map (fun x => { p with bitRate := x })
  | 1, 1 => (inRange 1 10 v).map (fun x => { p with queryWait := x })
  | 2, i => ((p.hose.a).accept i v).map (fun x => { p with hose := p.hose.set .a x })
  | 3, i => ((p.hose.b).accept i v).map (fun x => { p with hose := p.hose.set .b x })
  | 4, i => p.acceptTank i v
  | 5, i => p.acceptPoint i v
  | 6, 0 => (inRange 10 5000 v).map (fun x => { p with maxDispense := x })
  | 6, 1 => (inRange 2 1000 v).map (fun x => { p with blindCap := x })
  | 7, i => p.acceptSupervisor i v
  | _, _ => none

/-- A pair with its valid flag set is counted and judged (R197, R198; the layout of section 12.5). -/
def Cfg.judge (c : Cfg) (pair : ConfigPair) : Cfg :=
  let w := pair.first.toNat
  let block := w / 4096 % 8
  let index := w % 4096
  let c1 := { c with pairsRead := c.pairsRead + 1 }
  match c1.params.accept block index pair.value.toNat with
  | some p => { c1 with params := p }
  | none =>
    { c1 with rejected := c1.rejected + 1,
              firstRejected := if c1.firstRejected.isSome then c1.firstRejected else some (block, index) }

/-- CFL reads the pairs in order, at most as many as `left` (R197). -/
def readPairs : Nat → List ConfigPair → Cfg → Cfg
  | 0, _, c => { c with incomplete := true }
  | _ + 1, [], c => c
  | left + 1, pair :: rest, c =>
    if pair.first = 0 then c
    else if pair.first.msb then readPairs left rest (c.judge pair)
    else readPairs left rest c

/-- The download (R197, R199); a memory that does not answer is a list ended before its first pair. -/
def download (memory : Option (List ConfigPair)) : Cfg :=
  match memory with
  | none => { Cfg.initial with notRead := true }
  | some pairs =>
    let c := readPairs 512 pairs Cfg.initial
    { c with configured := c.params.station.isSome }

end Sys2Proof.Machine
end

