-- ==== Sys2Proof/Machine/Recovery.lean ====
section
/-! DEFINITION. STORE READ and RECOVERY (sections 11.3 and 11.4): what each block takes from the store, the
settling of the stock area against the ring, and the recovered closes. -/

namespace Sys2Proof.Machine

/-! ### The store as read (R200) -/

/-- An area whose check fails at this reading (R200). -/
def Store.damage (st : Store) : AreaName → Store
  | .ringPosition n => { st with ring := ringPut n .damaged st.ring }
  | .journalHeader => { st with header := .damaged }
  | .factorArea h => { st with factors := st.factors.set h .damaged }
  | .priceBanks => { st with banks := .damaged }
  | .stockArea => { st with stock := .damaged }
  | .clockArea => { st with clock := .damaged }

/-- Every area that fails its check, by name. -/
def Store.damagedAreas (st : Store) : List AreaName :=
  (if st.header.fails journalHeaderBytes then [.journalHeader] else [])
    ++ (if st.factors.a.fails factorAreaBytes then [.factorArea .a] else [])
    ++ (if st.factors.b.fails factorAreaBytes then [.factorArea .b] else [])
    ++ (if st.banks.fails banksBytes then [.priceBanks] else [])
    ++ (if st.stock.fails stockAreaBytes then [.stockArea] else [])
    ++ (if st.clock.fails (be 4) then [.clockArea] else [])
    ++ (st.ring.filter (fun p => p.2.fails positionBytes)).map (fun p => .ringPosition p.1)

/-- The record held at a position, if any (R200). -/
def recordAt (p : Nat × Area StoredRecord) : Option StoredRecord := p.2.read positionBytes

/-- The banks as read, a new store's when the area is empty (R200). -/
def Store.banksOf (st : Store) : Banks := (st.banks.read banksBytes).getD ⟨Bank.empty, Bank.empty⟩

/-- The stock area of a new store (R200). -/
def StockArea.new : StockArea :=
  { book := 0, memory := [], loss := false, bookSeq := 0, settledSeq := 0, flights := Two.both none }

/-- The stock area as read, a new store's when it is empty (R200). -/
def Store.stockOf (st : Store) : StockArea := (st.stock.read stockAreaBytes).getD StockArea.new

/-- A record placed by number. -/
def insertStored (r : StoredRecord) : List StoredRecord → List StoredRecord
  | [] => [r]
  | x :: rest => if r.number < x.number then r :: x :: rest else x :: insertStored r rest

/-- The records the ring holds, by rising number. -/
def Store.records (st : Store) : List StoredRecord := (st.ring.filterMap recordAt).foldr insertStored []

/-- The sequence counter after power-on (R161). -/
def counterAt (hdr : JournalHeader) (recs : List StoredRecord) : Nat :=
  max (max hdr.counter hdr.mark) ((recs.getLast?.map StoredRecord.number).getD 0)

/-- The mark after power-on: the stored mark, or a new store's 0 (R161), also where more than 1,024 numbers then
lie above it (log 25). -/
def markAt (hdr : JournalHeader) : Nat := hdr.mark

/-- The site clock as resumed (R25). -/
def clockAt (st : Store) (recs : List StoredRecord) : Nat :=
  max ((st.clock.read (be 4)).getD 0) ((recs.getLast?.map StoredRecord.time).getD 0)

/-! ### Settling (R204) -/

/-- The dispense entry that names a record. -/
def StockArea.entry (a : StockArea) (n : Nat) : Option Flight :=
  match a.flights.a, a.flights.b with
  | some e, other => if e.number = n then some e else other.filter (fun x => x.number == n)
  | none, other => other.filter (fun x => x.number == n)

/-- Gross, standard and overrun in µL that an OPEN record is closed with (R204, R205). -/
def usedFigures (a : StockArea) (n : Nat) (d : DispenseRec) : Nat × Int × Nat :=
  match a.entry n with
  | some e => (e.gross, e.fall, e.overrun)
  | none => (d.accGross, (d.accStd : Int), d.accOverrun)

/-- The standard volume in cL of a recovered close (R205). -/
def recoveredStd (a : StockArea) (n : Nat) (d : DispenseRec) : Nat := (roundCl (usedFigures a n d).2.1).toNat

/-- By how much the book already fell for a record of `whole` µL: the entry's fall, nothing above the book
sequence, and otherwise the whole of it (R204; for a record OPEN at or below the book sequence and named by no
entry, log 27). -/
def fallTaken (a : StockArea) (n : Nat) (whole : Int) : Int :=
  match a.entry n with
  | some e => e.fall
  | none => if a.bookSeq < n then 0 else whole

/-- The billed volume of a DISPENSE record of the ring in µL, by its recovered close when it is OPEN (R205). -/
def billedFall (a : StockArea) (n : Nat) (d : DispenseRec) : Int :=
  match d.close with
  | some c => (c.std : Int) * 10000
  | none => (recoveredStd a n d : Int) * 10000

/-- The book's further fall for a DISPENSE record of the ring, its recovered close included (R204, R205). -/
def dispenseFall (a : StockArea) (n : Nat) (d : DispenseRec) : Int :=
  billedFall a n d - fallTaken a n (billedFall a n d)

/-- SU settles the area against one record of the ring; `stored` is the area as read (R204). -/
def settleRecord (stored a : StockArea) (r : StoredRecord) : StockArea :=
  match r.body with
  | .delivery station number volume _ _ =>
    if stored.settledSeq < r.number then
      { a with book := bookAdd a.book ((volume : Int) * 10000), memory := rememberPair (station, number) a.memory,
               settledSeq := max a.settledSeq r.number }
    else a
  | .adjust delta _ =>
    if stored.settledSeq < r.number then
      { a with book := bookAdd a.book (delta * 10000), loss := false, settledSeq := max a.settledSeq r.number }
    else a
  | .dispense d => { a with book := bookAdd a.book (-(dispenseFall stored r.number d)) }
  | _ => a

/-- A DISPENSE record's fields. -/
def RecBody.isDispense : RecBody → Bool
  | .dispense _ => true
  | _ => false

/-- An entry whose DISPENSE record the ring does not hold: the book rises by its fall (R204). A LOST record with its
number, written by a recovery that was cut short, is not that record. -/
def undoEntry (recs : List StoredRecord) (e : Option Flight) (a : StockArea) : StockArea :=
  match e with
  | some f =>
    if recs.any (fun r => r.number == f.number && r.body.isDispense) then a
    else { a with book := bookAdd a.book f.fall }
  | none => a

/-- SU settles the stock area against the ring (R204). -/
def settle (stored : StockArea) (recs : List StoredRecord) : StockArea :=
  undoEntry recs stored.flights.b (undoEntry recs stored.flights.a
    (recs.foldl (settleRecord stored) stored))

/-! ### The records after power-on (R161, R205) -/

/-- The close fields of a recovered record (R205). -/
def recoveredClose (a : StockArea) (n clock : Nat) (d : DispenseRec) : CloseFields :=
  let u := usedFigures a n d
  { gross := roundClNat u.1, std := recoveredStd a n d, overrun := roundClNat u.2.2, theta := 150,
    held := true, overspeed := 0, endCause := .recovered, tagOutcome := .notAttempted, time := clock,
    sure := false, amount := 0, recovered := true }

/-- A DISPENSE record found OPEN, closed by JU through the same close step as any other (R149, R205). Its
accumulation takes the figures used, so that its entry's fall is what the book has fallen by. -/
def recoveredDispense (a : StockArea) (n clock : Nat) (d : DispenseRec) : DispenseRec :=
  let u := usedFigures a n d
  { d with accGross := u.1, accStd := u.2.1.toNat, accOverrun := u.2.2,
           adjustment := (recoveredStd a n d : Int) * 10000 - u.2.1.toNat }.closeWith
    (recoveredClose a n clock d)

/-- A stored record as JU holds it after power-on: CLOSED, or OPEN with its recovered close still to be written
(R161, R205). -/
def recoveredRecord (a : StockArea) (clock : Nat) (r : StoredRecord) : JRec :=
  let base : JRec := { number := r.number, time := r.time, sure := r.sure, body := r.body, state := .closed,
                       offers := 0, dueAt := none }
  match r.body with
  | .dispense d =>
    if d.close.isSome then base
    else { base with body := .dispense (recoveredDispense a r.number clock d), state := .opened }
  | _ => base

/-- A LOST record (R161): the time of the lowest-numbered record above it held in the ring, or the clock. -/
def lostRecord (recs : List StoredRecord) (clock n : Nat) : JRec :=
  { number := n, time := ((recs.find? (fun r => decide (n < r.number))).map StoredRecord.time).getD clock,
    sure := false, body := .lost, state := .opened, offers := 0, dueAt := none }

/-- The records above the mark, every number of them filled (R161). -/
def recoveredRecords (a : StockArea) (recs : List StoredRecord) (clock mark counter : Nat) : List JRec :=
  (List.range (counter - mark)).map (fun i =>
    match recs.find? (fun r => r.number == mark + 1 + i) with
    | some r => recoveredRecord a clock r
    | none => lostRecord recs clock (mark + 1 + i))

/-- A record to be written in RECOVERY. -/
def JRec.toWrite (r : JRec) : Bool := r.state == .opened

/-- The DISPENSE records at or below the mark that are found OPEN, each with its recovered close (R205). -/
def recoveredOld (a : StockArea) (recs : List StoredRecord) (clock mark : Nat) : List JRec :=
  ((recs.filter (fun r => decide (r.number ≤ mark))).map (recoveredRecord a clock)).filter JRec.toWrite

/-- The newest recovered DISPENSE record of a hose: its closed write has not ended GOOD (R203). -/
def newestRecovered (recs : List JRec) (h : Hose) : Option JRec :=
  (recs.filter (fun r => r.toWrite && (match r.body with | .dispense d => d.hose == h | _ => false))).getLast?

/-- JU after STORE READ and RECOVERY (R161, R205), its writes in the order of the numbers. -/
def recoveredJu (old recs : List JRec) (counter mark : Nat) : Ju :=
  { Ju.initial with
    recs := recs, old := old, counter := counter, mark := mark,
    unsaved := ⟨newestRecovered (old ++ recs) .a, newestRecovered (old ++ recs) .b⟩,
    writeList := ((old ++ recs).filter JRec.toWrite).map (fun r => WriteEntry.record r.number) }

/-! ### Factors, limits and banks (R85, R86, R164) -/

/-- A stored factor in range, otherwise the configured one (R86). -/
def factorFrom (stored : Option Nat) (configured : Nat) : Nat :=
  match stored with
  | some f => if 95000 ≤ f ∧ f ≤ 105000 then f else configured
  | none => configured

/-- The factor table at power-on (R86). -/
def factorTable (stored : Area (Quad Nat)) (configured : Quad Nat) : Quad Nat :=
  let q : Quad (Option Nat) := match stored.read factorAreaBytes with
    | some x => ⟨some x.b1, some x.b2, some x.b3, some x.b4⟩
    | none => Quad.all none
  ⟨factorFrom q.b1 configured.b1, factorFrom q.b2 configured.b2, factorFrom q.b3 configured.b3,
   factorFrom q.b4 configured.b4⟩

/-- The band upper limits are judged as a set (R85). -/
def limitsOk (q : Quad Nat) : Bool := ascending q.toList

/-- An MU at power-on (R85, R86, R103). -/
def Mu.powerOn (p : HoseParams) (stored : Area (Quad Nat)) : Mu :=
  let ok := limitsOk p.limits
  Mu.initial (factorTable stored p.factors) (if ok then p.limits else ⟨300, 1200, 2000, 3000⟩) (!ok)
    (ms (p.windowN * 100))

/-- PBU's banks at power-on (R164). -/
def Banks.settle (b : Banks) : Banks := ⟨b.one.settle, b.two.settle⟩

end Sys2Proof.Machine
end

