-- ==== Sys2Proof/Machine/Timers.lean ====
section
/-! DEFINITION. The commands of the journal's and the stock's own times (chapters 8 and 10), and the gauge's
readings. -/

namespace Sys2Proof.Machine

/-- OFFER_RETRY_WAIT: 1 s after a refused offer JU chooses again (R156). -/
def execOfferRetryWait (s : State) : Result :=
  live s (fun s => atDue s.ju.retryAt s (fun s =>
    chooseOffer { s with ju := { s.ju with retryAt := none } }))

/-- When a record's re-offer falls due (R158). -/
def reofferAt (s : State) (number : Nat) : Option Nat := (s.ju.find number).bind JRec.dueAt

/-- REOFFER_DUE (R154, R158). -/
def execReofferDue (number : Nat) (s : State) : Result :=
  live s (fun s => atDue (reofferAt s number) s chooseOffer)

/-- GAUGE_READING (R174, R175, R183). A level below 0 mm is brought as any other invalid reading (log 60). -/
def execGaugeReading (fault : Bool) (level : Nat) (temperature : Int) (s : State) : Result :=
  live s (fun s =>
    if readingValid fault level temperature then considerCheck (takeReading level temperature s)
    else { s with su := { s.su with gaugeBad := satInc max16 s.su.gaugeBad } })

/-- When 10 s with no valid reading have passed; in GAUGE_FAULT the time changes nothing (R174). -/
def gaugeDue (s : State) : Option Nat :=
  if s.su.gauge = .fault then none else some (s.su.lastValid + sec 10)

/-- GAUGE_TIMEOUT (R174, R175). -/
def execGaugeTimeout (s : State) : Result := live s (fun s => atDue (gaugeDue s) s gaugeFails)

/-- CHECK_RETRY_WAIT: the 60 s after a NO_SLOT stock check end (R184, log 33). -/
def execCheckRetryWait (s : State) : Result :=
  live s (fun s => atDue s.su.retryAt s (fun s => { s with su := { s.su with retryAt := none } }))

/-- The eight hourly totals at an hour's end (R187). -/
def hoursShift (hours : List Nat) : List Nat := 0 :: hours.take 7

/-- HOUR_END (R187). -/
def execHourEnd (s : State) : Result :=
  live s (fun s => atDue (some s.su.hourEnd) s (fun s =>
    { s with su := { s.su with hours := hoursShift s.su.hours, hourEnd := s.su.hourEnd + sec 3600 } }))

end Sys2Proof.Machine
end

