-- ==== Sys2Proof/Machine/Supply.lean ====
section
/-! DEFINITION. The supply (sections 11.1 and 11.5): start-up to RELEASE, the power-fail warning in every
block, and the failure of the supply. -/

namespace Sys2Proof.Machine

/-! ### Start-up (R196) -/

/-- The requests of RECOVERY: JU's records, SU's stock write, and a bank write when a bank has changed
(R161, R164, R204; their order is log 28). -/
def recoveryWrites (banksChanged : Bool) (s : State) : State :=
  let s1 := scAsk .su (askJournal s)
  if banksChanged then scAsk .pbu s1 else s1

/-- DOWNLOAD, STORE READ and RECOVERY up to the requests of their writes (R196). `st` is the store as SC
reads it. -/
def startUp (cfg : Cfg) (st : Store) (s : State) : State :=
  let recs := st.records
  let hdr := st.headerOf
  let counter := counterAt hdr recs
  let clock := clockAt st recs
  let mark := markAt hdr
  let stored := st.stockOf
  let area := settle stored recs
  let banks := st.banksOf
  let ju := recoveredJu (recoveredOld stored recs clock mark) (recoveredRecords stored recs clock mark counter)
    counter mark
  let base := State.unpowered s.pending s.draws st
  recoveryWrites (decide (banks.settle ≠ banks)) { base with
    power := .startUp, cfg := cfg,
    lc := { base.lc with clock := clock },
    mu := ⟨Mu.powerOn cfg.params.hose.a st.factors.a, Mu.powerOn cfg.params.hose.b st.factors.b⟩,
    ju := ju,
    pbu := { Pbu.initial with banks := banks.settle },
    su := { Su.initial (strapUsable (strapTable cfg.params.strapPoints)) with
            book := area.book, memory := area.memory, loss := area.loss, settledSeq := area.settledSeq },
    sc := { Sc.initial with fault := !st.damagedAreas.isEmpty, damaged := st.damagedAreas } }

/-- SUPPLY_UP (R196, R197, R200, R204, R205). It brings the configuration memory, none when it does not
answer, and the areas whose check fails at this reading (log 24). A part that is up takes none. -/
def execSupplyUp (memory : Option (List ConfigPair)) (failing : List AreaName) (s : State) : Result :=
  .next (if s.power = .off then
    startUp (download memory) (failing.foldl Store.damage s.store) s else s)

/-- The writes of RECOVERY have all ended (R196). -/
def recoveryDone (s : State) : Bool :=
  decide (s.power = .startUp) && s.sc.current.isNone && s.sc.queue.isEmpty && s.ju.writeList.isEmpty

/-- The blocks' states at RELEASE (R196): what recovery has left in JU, PBU, SU, MU and the clock stands. -/
def released (outA outB carrier : Bool) (s : State) : State :=
  let link : LinkState := if s.cfg.params.station.isSome then .listen else .withdrawn
  { s with power := .released, warnPending := false, draws := s.draws + 1,
           lc := Lc.initial link (Config.startNumberDraw s.draws) carrier s.lc.clock,
           hc := ⟨Hc.initial outA, Hc.initial outB⟩,
           sc := { s.sc with failures := 0, lastFailed := none } }

/-! ### The power-fail warning (R206) -/

/-- JU drops every waiting request (R162). -/
def dropWaiting (s : State) : State :=
  s.ju.waiting.foldl (fun acc r => requesterDropped r acc) { s with ju := { s.ju with waiting := [] } }

/-- The frame that the warning cuts short is reported like the waiting ones (R23, log 14). -/
def cutFrames (lc : Lc) : List TxFrame :=
  (match lc.tx with | some (f, _) => [f] | none => []) ++ lc.queue

/-- LC stops transmitting, discards the queue and asks for a clock write (R23, R25). -/
def linkWarned (s : State) : State :=
  let cut := s.lc.tx.isSome
  let sp := s.lc.spacing
  scAsk .lc (reportAll (cutFrames s.lc) { s with lc := { s.lc with
    queue := [], countdown := none, tx := none,
    gapMet := if cut then false else s.lc.gapMet, gapFrom := if cut then s.now else s.lc.gapFrom,
    spacing := if cut then { sp with idleSince := if s.lc.carrier then none else some s.now } else sp } })

/-- The PC stops the pump at once (R127). -/
def pumpWarned (s : State) : State :=
  { s with pump := { s.pump with state := .stopped, runOnAt := none, waiting := Two.both false } }

/-- A hose's stage closes at the warning (R127). -/
def closeStage (h : Hose) (s : State) : State := s.updHc h (fun hc => { hc with stage := .closed })

/-- A hose in STOPPING at the warning (R127). -/
def stoppingWarned (h : Hose) (s : State) : State :=
  match (s.hc.get h).tagStep with
  | .none => closeStraight h s
  | .awaitProbe => enterWriting h .notAttempted s
  | .writing => enterWriting h .failed s

/-- An HC at the warning, AU having ended the sessions (R127, R128). -/
def hoseWarned (h : Hose) (s : State) : State :=
  let s1 := closeStage h s
  match (s1.hc.get h).state with
  | .authorised => leaveAuthorised h .powerFail s1
  | .flowing => closeStraight h (s1.updHc h (fun hc => hc.ends .powerFail))
  | .stopping => stoppingWarned h s1
  | .proving =>
    if s1.prove.phase = .run then
      proveClose h (s1.updHc h (fun hc => { hc with endCause := some .powerFail }))
    else s1
  | _ => s1

/-- Every block takes the power-fail warning (R206); the order of the blocks is log 14. -/
def takeWarning (s : State) : State :=
  let s0 := { s with warned := true }
  let s1 := endSession .b (endSession .a (cancelWait .b (cancelWait .a s0)))
  let s2 := pumpWarned (linkWarned (dropWaiting s1))
  let s3 := proveWarned (hoseWarned .b (hoseWarned .a s2))
  closeInspect (askStock s3)

/-- STARTUP_RELEASE (R196): once the recovery writes have ended; a warning that came during start-up is
taken at this moment. -/
def execStartupRelease (outA outB carrier : Bool) (s : State) : Result :=
  .next (if recoveryDone s then
    (if s.warnPending then takeWarning (released outA outB carrier s) else released outA outB carrier s)
  else s)

/-- POWER_FAIL_WARNING (R206): taken once; one that comes during start-up is kept for RELEASE (R196). -/
def execPowerFailWarning (s : State) : Result :=
  .next (match s.power with
    | .off => s
    | .startUp => { s with warnPending := true }
    | .released => if s.warned then s else takeWarning s)

/-- The store when the supply fails: a write under way has completed on the hold-up (R206), or was cut off or ended
FAILED and its area keeps what the last completed write left (R202); which of the two is a free value (log 54). -/
def storeAtFailure (s : State) : Store :=
  match s.sc.current with
  | some (_, w) => if Config.writeEndsGood s.draws then s.store.commit w else s.store
  | none => s.store

/-- SUPPLY_FAILURE (R202, R206): the working state is lost; the store stands. -/
def execSupplyFailure (s : State) : Result :=
  .next (if s.power = .off then s else State.unpowered s.pending (s.draws + 1) (storeAtFailure s))

end Sys2Proof.Machine
end

