-- ==== Sys2Proof/Machine/Dispatch.lean ====
section
/-! DEFINITION. Which meaning each command has. -/

namespace Sys2Proof.Machine

/-- The effect of a command on everything but the queue. -/
def exec (i : Instr) (s : State) : Host.Outcome State Fault Refusal :=
  match i with
  | .supplyUp memory failing => Sys2Proof.Machine.execSupplyUp memory failing s
  | .startupRelease outA outB carrier => Sys2Proof.Machine.execStartupRelease outA outB carrier s
  | .powerFailWarning => Sys2Proof.Machine.execPowerFailWarning s
  | .idleGap => Sys2Proof.Machine.execIdleGap s
  | .backoffSlot => Sys2Proof.Machine.execBackoffSlot s
  | .carrierSenseActive => Sys2Proof.Machine.execCarrierSenseActive s
  | .transmissionEnd => Sys2Proof.Machine.execTransmissionEnd s
  | .recordSpacingIdleTotal => Sys2Proof.Machine.execRecordSpacingIdleTotal s
  | .badFrame line => Sys2Proof.Machine.execBadFrame line s
  | .hello hd startNumber product => Sys2Proof.Machine.execHello hd startNumber product s
  | .status hd body => Sys2Proof.Machine.execStatus hd body s
  | .draw hd machine d => Sys2Proof.Machine.execDraw hd machine d s
  | .query hd machine window => Sys2Proof.Machine.execQuery hd machine window s
  | .answer hd machine draws => Sys2Proof.Machine.execAnswer hd machine draws s
  | .record hd number index chunk => Sys2Proof.Machine.execRecord hd number index chunk s
  | .mark hd target number time => Sys2Proof.Machine.execMark hd target number time s
  | .price hd index body => Sys2Proof.Machine.execPrice hd index body s
  | .delivery hd target number volume time => Sys2Proof.Machine.execDelivery hd target number volume time s
  | .listenTime => Sys2Proof.Machine.execListenTime s
  | .settleTime => Sys2Proof.Machine.execSettleTime s
  | .isolationTime => Sys2Proof.Machine.execIsolationTime s
  | .statusPeriod => Sys2Proof.Machine.execStatusPeriod s
  | .reassemblyTimeLimit => Sys2Proof.Machine.execReassemblyTimeLimit s
  | .siteClockCount => Sys2Proof.Machine.execSiteClockCount s
  | .clockHoldEnd => Sys2Proof.Machine.execClockHoldEnd s
  | .clockStoringPeriod => Sys2Proof.Machine.execClockStoringPeriod s
  | .claimsListEntryExpiry station => Sys2Proof.Machine.execClaimsListEntryExpiry station s
  | .headAnswer h checkOk number result => Sys2Proof.Machine.execHeadAnswer h checkOk number result s
  | .headCommandTimeout h => Sys2Proof.Machine.execHeadCommandTimeout h s
  | .keyPresented num operator => Sys2Proof.Machine.execKeyPresented num operator s
  | .keyRemoved num => Sys2Proof.Machine.execKeyRemoved num s
  | .digit num d => Sys2Proof.Machine.execDigit num d s
  | .hoseKey num h => Sys2Proof.Machine.execHoseKey num h s
  | .enter num => Sys2Proof.Machine.execEnter num s
  | .clear num => Sys2Proof.Machine.execClear num s
  | .stop num => Sys2Proof.Machine.execStop num s
  | .prove num => Sys2Proof.Machine.execProve num s
  | .ack num => Sys2Proof.Machine.execAck num s
  | .adopt num => Sys2Proof.Machine.execAdopt num s
  | .inspect num => Sys2Proof.Machine.execInspect num s
  | .panelStatus num page => Sys2Proof.Machine.execPanelStatus num page s
  | .panelBad message => Sys2Proof.Machine.execPanelBad message s
  | .panelAbsent => Sys2Proof.Machine.execPanelAbsent s
  | .displayRecordSend target => Sys2Proof.Machine.execDisplayRecordSend target s
  | .promptExpiry => Sys2Proof.Machine.execPromptExpiry s
  | .pulse h levelB => Sys2Proof.Machine.execPulse h levelB s
  | .flowWindowEnd h sample => Sys2Proof.Machine.execFlowWindowEnd h sample s
  | .nozzleLift h => Sys2Proof.Machine.execNozzleLift h s
  | .nozzleHang h => Sys2Proof.Machine.execNozzleHang h s
  | .readRequestSecond h => Sys2Proof.Machine.execReadRequestSecond h s
  | .tagReadTimeLimit h => Sys2Proof.Machine.execTagReadTimeLimit h s
  | .keyWaitTimeLimit h => Sys2Proof.Machine.execKeyWaitTimeLimit h s
  | .querySendLimit h => Sys2Proof.Machine.execQuerySendLimit h s
  | .queryAnswerTime h => Sys2Proof.Machine.execQueryAnswerTime h s
  | .noFlowTimer h => Sys2Proof.Machine.execNoFlowTimer h s
  | .idleTimer h => Sys2Proof.Machine.execIdleTimer h s
  | .probeSecond h => Sys2Proof.Machine.execProbeSecond h s
  | .drainEnd h => Sys2Proof.Machine.execDrainEnd h s
  | .drainTimeLimit h => Sys2Proof.Machine.execDrainTimeLimit h s
  | .runOnTimer => Sys2Proof.Machine.execRunOnTimer s
  | .budgetFall => Sys2Proof.Machine.execBudgetFall s
  | .proveSelectTime => Sys2Proof.Machine.execProveSelectTime s
  | .proveSizeTime => Sys2Proof.Machine.execProveSizeTime s
  | .proveReadingTime => Sys2Proof.Machine.execProveReadingTime s
  | .inspectPageTimeout => Sys2Proof.Machine.execInspectPageTimeout s
  | .offerRetryWait => Sys2Proof.Machine.execOfferRetryWait s
  | .reofferDue number => Sys2Proof.Machine.execReofferDue number s
  | .storeWriteEnd good => Sys2Proof.Machine.execStoreWriteEnd good s
  | .gaugeReading fault level temperature => Sys2Proof.Machine.execGaugeReading fault level temperature s
  | .gaugeTimeout => Sys2Proof.Machine.execGaugeTimeout s
  | .checkRetryWait => Sys2Proof.Machine.execCheckRetryWait s
  | .hourEnd => Sys2Proof.Machine.execHourEnd s
  | .channelBEdge h rising => Sys2Proof.Machine.execChannelBEdge h rising s
  | .carrierSenseInactive unjudged => Sys2Proof.Machine.execCarrierSenseInactive unjudged s
  | .supplyFailure => Sys2Proof.Machine.execSupplyFailure s

end Sys2Proof.Machine
end

