-- ==== Sys2Proof/Machine/Step.lean ====
section
/-! DEFINITION. A step of the part: the command at the front of the queue, or a millisecond with the queue
empty. -/

namespace Sys2Proof.Machine

/-- A step with nothing to take: 1 ms passes for a part that has been released (log 1). -/
def idleStep (s : State) : State := if s.power = .released then { s with now := s.now + ms 1 } else s

/-- A step of the part. -/
def step (s : State) : Host.Outcome State Fault Refusal :=
  match s.pending with
  | [] => .next (idleStep s)
  | i :: rest => exec i { s with pending := rest }

/-- The command that a word spells, put at the front of the queue; no row of the table gives bits, so no
word spells one. -/
def State.withFetchWord (s : State) (nbits w : Nat) : State :=
  match decodeTableWord nbits w with
  | some i => { s with pending := i :: s.pending }
  | none => s

end Sys2Proof.Machine
end

