-- ==== Sys2Proof/Safety.lean ====
section
/-! DEFINITION. What claims speak of: the bounds of the part's lists and counters, what goes on from step to
step within one power-on, the valves' safety, and the terms the statements share. -/

namespace Sys2Proof.Machine

/-- The waiting STATUS frames of a queue. -/
def statusFrames (q : List TxFrame) : List TxFrame := q.filter (fun f => f.owner == .status)

/-- The bounds that the spec sets: the start budget (R125), the transmit queue and its STATUS (R7), the Machine
Table (R42), the claims list (R190), the preset entry (R80) and the level history (R175). -/
structure Bounded (s : State) : Prop where
  budget : s.pump.level ≤ 6
  queue : s.lc.queue.length ≤ 16
  status : (statusFrames s.lc.queue).length ≤ 1
  entries : s.mt.entries.length ≤ 48
  claims : s.lc.claims.length ≤ 16
  digits : s.au.digits.length ≤ 6
  levels : s.su.history.length ≤ 10

/-- What one power-on keeps from a state to a later one: the queue of commands, the configuration and the
start number stay; the elapsed count, the site clock (R24), the sequence counter (R140), the mark (R159) and
the numbers drawn do not fall; the sure flag (R24), the warning (R206) and STORE_FAULT (R202) stand; and the
bounds hold on. -/
structure Onward (s t : State) : Prop where
  pending : t.pending = s.pending
  power : t.power = s.power
  cfg : t.cfg = s.cfg
  start : t.lc.startNumber = s.lc.startNumber
  now : s.now ≤ t.now
  draws : s.draws ≤ t.draws
  clock : s.lc.clock ≤ t.lc.clock
  sure : s.lc.sure = true → t.lc.sure = true
  counter : s.ju.counter ≤ t.ju.counter
  mark : s.ju.mark ≤ t.ju.mark
  warned : s.warned = true → t.warned = true
  fault : s.sc.fault = true → t.sc.fault = true
  budget : s.pump.level ≤ 6 → t.pump.level ≤ 6
  queue : s.lc.queue.length ≤ 16 → t.lc.queue.length ≤ 16
  status : (statusFrames s.lc.queue).length ≤ 1 → (statusFrames t.lc.queue).length ≤ 1
  entries : s.mt.entries.length ≤ 48 → t.mt.entries.length ≤ 48
  claims : s.lc.claims.length ≤ 16 → t.lc.claims.length ≤ 16
  digits : s.au.digits.length ≤ 6 → t.au.digits.length ≤ 6
  levels : s.su.history.length ≤ 10 → t.su.history.length ≤ 10

/-! ### Terms the statements share -/

/-- The commands that have an effect before RELEASE too (R196, R201, R206). -/
def actsBeforeRelease : Instr → Bool
  | .supplyUp _ _ | .startupRelease _ _ _ | .powerFailWarning | .displayRecordSend _ | .storeWriteEnd _
  | .supplyFailure => true
  | _ => false

/-- What LC keeps of a heard frame, but for record spacing (R12, R14, R20). -/
def heardPlain (s : State) : State :=
  { s with lc := { s.lc with
      rx := if s.lc.rx = .receiving then .judged else s.lc.rx, lastHeard := some s.now,
      link := if s.lc.link = .isolated ∧ s.warned = false then .joined else s.lc.link } }

/-- What LC keeps of a heard frame, its count for record spacing included (R6). -/
def heard (s : State) : State := spacingHeard (heardPlain s)

/-- The command that brings a frame as its fields. -/
def frameCommand (hd : Header) : FrameBody → Instr
  | .hello n p => .hello hd n p
  | .status b => .status hd b
  | .draw m d => .draw hd m d
  | .query m w => .query hd m w
  | .answer m ds => .answer hd m ds
  | .record n i c => .record hd n i c
  | .mark t n time => .mark hd t n time
  | .price i b => .price hd i b
  | .delivery t n v time => .delivery hd t n v time

/-- A released part hears a frame: it takes bytes, and the frame passes the checks of R13. -/
structure Hears (s : State) (hd : Header) (body : FrameBody) : Prop where
  released : s.power = .released
  receives : receiving s = true
  length : fieldsLengthOk hd body = true
  spare : spareOk hd body = true
  source : sourceOk hd.source.toNat body = true
  own : ownIdOk s.cfg.params.station hd.source.toNat body = true

/-- What every good panel message leaves: its acknowledgement sent, and the panel heard from (R207, R209). -/
def answered (num : Byte) (s : State) : State :=
  { s with pp := { s.pp with
      sent := [panelLine s.pp.outNumber (.acknowledge num)], outNumber := s.pp.outNumber + 1, lastGood := s.now } }

/-- The same for a message that is taken: its number is the last one taken. -/
def taken (num : Byte) (s : State) : State :=
  { answered num s with pp := { (answered num s).pp with lastTaken := some num } }

/-- A message numbered `num` is taken: the part is released, the panel present, and the number new (R207). -/
structure Takes (s : State) (num : Byte) : Prop where
  released : s.power = .released
  present : s.pp.present = true
  fresh : s.pp.lastTaken ≠ some num

end Sys2Proof.Machine
end

