-- ==== Sys2Proof/Certificates/Slice0/Obligations.lean ====
section
/-! DEFINITION. The statements for the provers, each a proposition named for what it states. -/

section

open Sys2Proof Sys2Proof.Machine

/-! ### The step, the supply and what every command keeps -/

/-- A step with a command in the queue is that command's effect on the state with the queue's rest. -/
def Obligations.StepTakesTheFrontCommand : Prop :=
  ∀ (c : Instr) (rest : List Instr) (s : State), s.pending = c :: rest →
    step s = exec c { s with pending := rest }

/-- A step with nothing waiting: a released part's elapsed count goes on by 1 ms, any other part is as it was (the
model's choice, log 1). -/
def Obligations.EmptyQueueStepPassesOneMillisecond : Prop :=
  ∀ s : State, s.pending = [] →
    step s = .next (if s.power = .released then { s with now := s.now + ms 1 } else s)

/-- A part that is off with a new store starts up empty: sequence counter, mark, clock and book 0, no records, both
banks EMPTY, no remembered delivery, the loss state clear, no STORE_FAULT, and factors as configured. -/
def Obligations.NewStoreStartsEmpty : Prop :=
  ∀ (memory : Option (List ConfigPair)) (s : State), s.power = .off → s.store = Store.new → ∃ t : State,
    exec (.supplyUp memory []) s = .next t ∧ t.power = .startUp ∧ t.cfg = download memory ∧
    t.ju.recs = [] ∧ t.ju.counter = 0 ∧ t.ju.mark = 0 ∧ t.lc.clock = 0 ∧ t.lc.sure = false ∧
    t.su.book = 0 ∧ t.su.memory = [] ∧ t.su.loss = false ∧ t.sc.fault = false ∧ t.sc.damaged = [] ∧
    t.pbu.banks = ⟨Bank.empty, Bank.empty⟩ ∧
    (∀ h, (t.mu.get h).table = ((download memory).params.hose.get h).factors)

/-- SUPPLY_UP on a part that is off: the configuration is read, the store is taken as read at this moment, and
counter, mark, clock, banks and book come from it. On a part that is up it changes nothing. Where it speaks of a
mark more than 1,024 below the counter (log 25), of a record OPEN at or below the book sequence and named by no
entry (log 27), of which areas fail their check at this reading (log 24) and of the bytes an area's check covers
(log 52), that is the model's choice. -/
def Obligations.SupplyUpReadsConfigurationAndStore : Prop :=
  ∀ (memory : Option (List ConfigPair)) (failing : List AreaName) (s : State),
    (s.power = .off →
      let st := failing.foldl Store.damage s.store
      ∃ t : State, exec (.supplyUp memory failing) s = .next t ∧
        t.pending = s.pending ∧ t.power = .startUp ∧ t.cfg = download memory ∧ t.store = st ∧
        t.sc.damaged = st.damagedAreas ∧ (t.sc.fault = true ↔ st.damagedAreas ≠ []) ∧
        t.ju.counter = counterAt st.headerOf st.records ∧
        t.ju.mark = st.headerOf.mark ∧
        t.lc.clock = clockAt st st.records ∧ t.lc.sure = false ∧
        t.su.book = (settle st.stockOf st.records).book ∧
        t.pbu.banks = st.banksOf.settle ∧
        t.mt = Mt.initial ∧ t.pump = Pump.initial ∧ t.prove = Prove.initial ∧ t.pp = Pp.initial) ∧
    (s.power ≠ .off → exec (.supplyUp memory failing) s = .next s)

/-- STARTUP_RELEASE once the writes of recovery have ended: the link listens or, with no station id, is withdrawn;
the start number is the one drawn; each hose starts by its holster switch with its stage closed; and what recovery
has left stands. With a warning kept from start-up every block then takes it at that moment, as one that comes right
after RELEASE. Before that it changes nothing. Where it speaks of the drawn start number (log 5), the numbers
drawn (log 6) and the blocks' order at the warning (log 14), that is the model's choice. -/
def Obligations.ReleaseBeginsTheWork : Prop :=
  ∀ (outA outB carrier : Bool) (s : State),
    (recoveryDone s = true → s.warnPending = false →
      ∃ t : State, exec (.startupRelease outA outB carrier) s = .next t ∧
        t.pending = s.pending ∧ t.power = .released ∧ t.warned = s.warned ∧
        t.lc.link = (if s.cfg.params.station.isSome then .listen else .withdrawn) ∧
        t.lc.startNumber = Config.startNumberDraw s.draws ∧ t.draws = s.draws + 1 ∧
        t.lc.clock = s.lc.clock ∧ t.lc.sure = false ∧ t.lc.queue = [] ∧ t.lc.carrier = carrier ∧
        t.hc.a = Hc.initial outA ∧ t.hc.b = Hc.initial outB ∧
        t.ju = s.ju ∧ t.su = s.su ∧ t.pbu = s.pbu ∧ t.mu = s.mu ∧ t.store = s.store ∧ t.cfg = s.cfg) ∧
    (recoveryDone s = true → s.warnPending = true → ∃ u t : State,
      exec (.startupRelease outA outB carrier) { s with warnPending := false } = .next u ∧
      exec (.startupRelease outA outB carrier) s = .next t ∧
      (s.warned = false → exec .powerFailWarning u = .next t) ∧
      t.power = .released ∧ t.warned = true ∧ t.warnPending = false ∧ t.pending = s.pending ∧ t.lc.queue = [] ∧
      (siteLine t).powerFailing = true) ∧
    (recoveryDone s = false → exec (.startupRelease outA outB carrier) s = .next s)

/-- The power-fail warning on a released part that has not taken it: no frame waits or is sent, the pump is
stopped, both stages are closed, no request waits in the journal, the query waits are ended, no hose is in a
session or dispensing, and the inspect page is closed. A warning taken is not taken again, and one that comes
during start-up is kept for RELEASE. -/
def Obligations.WarningEndsTheWork : Prop :=
  ∀ s : State,
    (s.power = .released → s.warned = false →
      ∃ t : State, exec .powerFailWarning s = .next t ∧
        t.warned = true ∧ t.power = .released ∧ t.lc.queue = [] ∧ t.lc.countdown = none ∧ t.lc.tx = none ∧
        t.pump.state = .stopped ∧ t.pump.level = s.pump.level ∧ t.pump.fallAt = s.pump.fallAt ∧
        t.ju.waiting = [] ∧ t.mt.wait = Two.both .none ∧ t.inspect.closeAt = none ∧
        (∀ h, (t.hc.get h).stage = .closed) ∧
        (∀ h, (t.hc.get h).state ≠ .identifying ∧ (t.hc.get h).state ≠ .awaitKey ∧
          (t.hc.get h).state ≠ .querying ∧ (t.hc.get h).state ≠ .authorised ∧
          (t.hc.get h).state ≠ .flowing ∧ (t.hc.get h).state ≠ .stopping)) ∧
    (s.power = .released → s.warned = true → exec .powerFailWarning s = .next s) ∧
    (s.power = .startUp → exec .powerFailWarning s = .next { s with warnPending := true })

/-- SUPPLY_FAILURE: the store keeps what was written. A write under way that completes on the hold-up is in it; one
that is cut off or ends FAILED leaves its area as the last completed write left it, and one not begun leaves
nothing. Everything else is as in a part with its supply off. Where it speaks of values with the supply off (log 4),
of which end the write under way takes, a free value (log 54), and of the count of the values drawn (log 6), that is
the model's choice. -/
def Obligations.SupplyFailureKeepsTheStore : Prop :=
  ∀ s : State, s.power ≠ .off →
    (s.sc.current = none →
      exec .supplyFailure s = .next (State.unpowered s.pending (s.draws + 1) s.store)) ∧
    (∀ r w, s.sc.current = some (r, w) → exec .supplyFailure s = .next (State.unpowered s.pending (s.draws + 1)
      (if Config.writeEndsGood s.draws then s.store.commit w else s.store)))

/-- Before RELEASE every command but those of the supply, a store write's end and the sending of a display record
changes nothing (the model's choice of what is not taken, log 3). -/
def Obligations.NothingElseIsTakenBeforeRelease : Prop :=
  ∀ (i : Instr) (s : State), s.power ≠ .released → actsBeforeRelease i = false → exec i s = .next s

/-- The bounds hold on from step to step: a start budget of at most 6, at most 16 waiting frames with at most one
STATUS, 48 entries of the Machine Table, 16 claims, 6 digits and 10 levels. -/
def Obligations.EveryStepKeepsTheBounds : Prop :=
  ∀ s t : State, Bounded s → step s = .next t → Bounded t

/-- The bounds hold at reset. -/
def Obligations.TheBoundsHoldAtReset : Prop := Bounded State.reset

/-- Within one power-on nothing falls back: a command leaves the queue of commands as it is, the elapsed count,
the site clock, the sequence counter and the mark do not fall, and the sure flag, the warning and STORE_FAULT
stand once set. -/
def Obligations.NothingFallsBackWithinOnePowerOn : Prop :=
  ∀ (i : Instr) (s : State), s.power = .released → i ≠ .supplyFailure →
    ∃ t : State, exec i s = .next t ∧ t.pending = s.pending ∧ t.power = .released ∧ t.cfg = s.cfg ∧
      t.lc.startNumber = s.lc.startNumber ∧ s.now ≤ t.now ∧ s.lc.clock ≤ t.lc.clock ∧
      s.ju.counter ≤ t.ju.counter ∧ s.ju.mark ≤ t.ju.mark ∧ (s.lc.sure = true → t.lc.sure = true) ∧
      (s.warned = true → t.warned = true) ∧ (s.sc.fault = true → t.sc.fault = true)

/-! ### Formats -/

/-- The check value of no bytes is 0xFFFF, and that of the single byte 0x01 is 0xC29A. -/
def Obligations.CheckValueOfShortTexts : Prop :=
  checkValue [] = 0xFFFF#16 ∧ checkValue [0x01#8] = 0xC29A#16

/-- A frame sent is read back: whatever bytes follow it, the line that carries a frame of an allowed length is
judged good with the same header and body, every field at every value. -/
def Obligations.FrameOnTheLineReadsBack : Prop :=
  ∀ (hd : Header) (body : FrameBody) (rest : List Byte), fieldsLengthOk hd body = true →
    judgeBytes (lineBytes (frameBytes hd body) ++ rest) = .good hd body

/-- A history written to a tag's two fragments reads back, valid, field for field. -/
def Obligations.TagHistoryReadsBack : Prop :=
  ∀ x : History, x.valid = true → x.machine < 2 ^ 24 → x.idCheck < 2 ^ 8 → x.generation < 2 ^ 8 →
    x.entries.length ≤ 3 →
    (∀ d ∈ x.entries, 1 ≤ d.bowser ∧ d.bowser ≤ 47 ∧ d.time < 2 ^ 32 ∧ d.volume < 2 ^ 24) →
    historyOf (historyFragment1 x) (historyFragment2 x) = x

end

section

open Sys2Proof Sys2Proof.Machine

/-! ### The channel and the transmit queue -/

/-- Carrier sense rises: the channel is not idle, a frame may come, and a countdown keeps its count. Carrier sense
falls with every byte judged: the channel is idle again and the idle gap begins; when it falls in the middle of a
frame, LENGTH also counts, and nothing else of the frame is kept. Where it speaks of a carrier that brought no byte
and of judging the bytes left when it falls (log 11), that is the model's choice. -/
def Obligations.CarrierSenseEdges : Prop :=
  ∀ s : State, s.power = .released →
    (s.lc.carrier = false → exec .carrierSenseActive s = .next { s with lc := { s.lc with
      carrier := true, rx := .receiving, gapMet := false,
      countdown := s.lc.countdown.map (fun c => { c with counting := false }),
      spacing := { s.lc.spacing with idleTotal := s.lc.spacing.totalAt s.now, idleSince := none } } }) ∧
    (s.lc.carrier = true → s.lc.tx = none → exec (.carrierSenseInactive []) s = .next { s with lc := { s.lc with
      carrier := false, rx := .quiet, gapMet := false, gapFrom := s.now,
      spacing := { s.lc.spacing with idleSince := some s.now } } }) ∧
    (∀ rest, s.lc.carrier = true → s.lc.tx = none → s.lc.rx = .receiving → rest ≠ [] →
      judgeBytes rest = .badLength →
      exec (.carrierSenseInactive rest) s = .next { s with lc := { s.lc with
        carrier := false, rx := .quiet, gapMet := false, gapFrom := s.now,
        counters := { s.lc.counters with length := satInc max16 s.lc.counters.length },
        spacing := { s.lc.spacing with idleSince := some s.now } } })

/-- The channel's times. The idle gap of 3 ms is met: the countdown of the head frame starts to count, and a count
of zero sends the head frame at once. Each slot of 4 ms lowers the count by one; with the last the head frame
leaves the queue and is sent. Record spacing releases when its idle total has reached 250 ms. Where it speaks of
the due time a time-driven command stands for (log 2), that is the model's choice. -/
def Obligations.IdleGapSlotsAndSpacing : Prop :=
  ∀ s : State, s.power = .released →
    (∀ c, s.lc.idle = true → s.lc.gapMet = false → s.lc.countdown = some c →
      (0 < c.left → exec .idleGap s = .next { s with
        now := max s.now (s.lc.gapFrom + ms 3),
        lc := { s.lc with
          gapMet := true,
          countdown := some { c with counting := true, slotFrom := max s.now (s.lc.gapFrom + ms 3) } } }) ∧
      (∀ f rest, c.left = 0 → s.lc.queue = f :: rest → ∃ t : State, exec .idleGap s = .next t ∧
        t.now = max s.now (s.lc.gapFrom + ms 3) ∧ t.lc.tx = some (f, t.now) ∧ t.lc.queue = rest ∧
        t.lc.countdown = none)) ∧
    (∀ c, s.lc.countdown = some c → c.counting = true →
      (1 < c.left → exec .backoffSlot s = .next { s with
        now := max s.now (c.slotFrom + ms 4),
        lc := { s.lc with countdown := some { c with left := c.left - 1, slotFrom := c.slotFrom + ms 4 } } }) ∧
      (∀ f rest, c.left ≤ 1 → s.lc.queue = f :: rest → ∃ t : State, exec .backoffSlot s = .next t ∧
        t.now = max s.now (c.slotFrom + ms 4) ∧ t.lc.tx = some (f, t.now) ∧ t.lc.queue = rest ∧
        t.lc.countdown = none ∧ t.lc.gapMet = false)) ∧
    (∀ t, s.lc.spacing.held = true → s.lc.spacing.idleSince = some t → s.lc.queue = [] →
      exec .recordSpacingIdleTotal s = .next { s with
        now := max s.now (t + (ms 250 - s.lc.spacing.idleTotal)),
        lc := { s.lc with spacing := { s.lc.spacing with held := false, idleTotal := ms 250 } } })

/-- The part's frame has gone, with nothing more waiting. After a STATUS, DRAW or ANSWER only the channel changes;
after a HELLO in ANNOUNCE the settle time of 2 s begins; after a QUERY the wait it belongs to is WAITING from this
moment; after a RECORD frame spacing is held. The last fragment of the standing offer completes it: the offer count
rises, the re-offer falls due after 20 s, or after 300 s from the third offer on, and with no other candidate no
offer follows. Where it speaks of the due time a time-driven command stands for (log 2) and of the order of what the
end of the frame brings (log 43), that is the model's choice. -/
def Obligations.TransmissionEndsFreeTheChannel : Prop :=
  ∀ (s : State) (f : TxFrame) (began done : Nat), s.power = .released → s.lc.tx = some (f, began) →
    s.lc.queue = [] → done = max s.now (began + (f.bytes.length + 1) * 10 * bitTime s) →
    (f.cls ≠ 4 → f.owner = .status ∨ f.owner = .draw ∨ f.owner = .answer →
      exec .transmissionEnd s = .next { s with now := done, lc := { s.lc with
        tx := none, gapMet := false, gapFrom := done,
        spacing := { s.lc.spacing with idleSince := if s.lc.carrier then none else some done } } }) ∧
    (f.cls ≠ 4 → f.owner = .hello → s.lc.link = .announce →
      exec .transmissionEnd s = .next { s with now := done, lc := { s.lc with
        tx := none, gapMet := false, gapFrom := done, settleAt := some (done + sec 2),
        spacing := { s.lc.spacing with idleSince := if s.lc.carrier then none else some done } } }) ∧
    (∀ h id m since, f.cls ≠ 4 → f.owner = .query h id → s.mt.wait.get h = .sending m id since →
      exec .transmissionEnd s = .next { s with
        now := done, mt := { s.mt with wait := s.mt.wait.set h (.waiting m id done) },
        lc := { s.lc with
          tx := none, gapMet := false, gapFrom := done,
          spacing := { s.lc.spacing with idleSince := if s.lc.carrier then none else some done } } }) ∧
    (f.cls = 4 → s.ju.offer = none → (∃ serial index fragments, f.owner = .offer serial index fragments) →
      exec .transmissionEnd s = .next { s with now := done, lc := { s.lc with
        tx := none, gapMet := false, gapFrom := done,
        spacing := { held := true, count := 0, idleTotal := 0,
                     idleSince := if s.lc.carrier then none else some done } } }) ∧
    (∀ o index fragments, f.cls = 4 → s.ju.offer = some o → f.owner = .offer o.serial index fragments →
      index + 1 = fragments → (∀ r ∈ s.ju.recs, r.number = o.number → r.state = .offered) →
      (∀ r ∈ s.ju.recs, r.number ≠ o.number → r.candidate s.ju.mark done = false) →
      exec .transmissionEnd s = .next { s with
        now := done,
        ju := { s.ju.upd o.number (fun r => { r with
            offers := satInc 255 r.offers,
            dueAt := some (done + if satInc 255 r.offers ≤ 2 then sec 20 else sec 300) }) with offer := none },
        lc := { s.lc with
          tx := none, gapMet := false, gapFrom := done,
          spacing := { held := true, count := 0, idleTotal := 0,
                       idleSince := if s.lc.carrier then none else some done } } })

/-- A frame asked for with room in the queue goes behind every frame of its class and before the first of a higher
class; with 16 waiting a STATUS is refused, and any other is when no offer's fragment waits to make room. With one
waiting, every fragment of the newest offer leaves the queue, a countdown of one of them ends, JU takes the offer as
DISCARDED, the frame takes its place, and JU chooses again. The frame that comes to the head overtakes: the countdown
of the frame it overtakes ends, and one of its own begins with a count of its class. Behind the head it leaves the
countdown as it is. Where it speaks of the count drawn (log 6), of no countdown while the part sends (log 12) and of
the order of the steps of a displaced offer (log 13), that is the model's choice. -/
def Obligations.FramesWaitByClass : Prop :=
  ∀ (f : TxFrame) (s : State),
    (∃ front back, s.lc.queue = front ++ back ∧ insertByClass f s.lc.queue = front ++ f :: back ∧
      (∀ g ∈ front, g.cls ≤ f.cls) ∧ (∀ g, back.head? = some g → f.cls < g.cls)) ∧
    (lcTakes s f.owner = true → s.lc.queue.length < 16 → enqueueFrame f s = (true, placeFrame f s)) ∧
    (lcTakes s f.owner = true → 16 ≤ s.lc.queue.length →
      f.owner = .status ∨ (∀ g ∈ s.lc.queue, g.offerSerial = none) → enqueueFrame f s = (false, s)) ∧
    (lcTakes s f.owner = false → enqueueFrame f s = (false, s)) ∧
    (∀ serial front k m b back, lcTakes s f.owner = true → 16 ≤ s.lc.queue.length → f.owner ≠ .status →
      s.lc.queue = front ++ TxFrame.mk 4 (.offer serial k m) b :: back → (∀ g ∈ back, g.offerSerial = none) →
      enqueueFrame f s = (true, chooseOffer (placeFrame f (offerDiscarded serial { s with lc := { s.lc with
        queue := s.lc.queue.filter (fun g => g.offerSerial != some serial),
        countdown := if s.lc.queue.head?.bind TxFrame.offerSerial = some serial then none
          else s.lc.countdown } })))) ∧
    (∀ o, s.ju.offer = some o → offerDiscarded o.serial s = { s with ju := { s.ju.upd o.number (fun r =>
      if r.state = .offered then { r with state := .closed, dueAt := none } else r) with offer := none } }) ∧
    ((∀ g, s.lc.queue.head? = some g → f.cls < g.cls) → s.lc.gapMet = false → s.lc.tx = none →
      s.lc.spacing.held = false ∨ f.cls ≠ 4 →
      placeFrame f s = { s with
        draws := s.draws + 1,
        lc := { s.lc with
          queue := f :: s.lc.queue,
          countdown := some { left := backoffCount f.cls (Config.backoffDraw s.draws), counting := false,
                              slotFrom := s.now } } }) ∧
    (∀ g c, s.lc.queue.head? = some g → g.cls ≤ f.cls → s.lc.countdown = some c →
      placeFrame f s = { s with lc := { s.lc with queue := insertByClass f s.lc.queue } }) ∧
    (∀ n, backoffCount 1 n < 8 ∧ (8 ≤ backoffCount 2 n ∧ backoffCount 2 n < 16) ∧
      (16 ≤ backoffCount 3 n ∧ backoffCount 3 n < 32) ∧ (32 ≤ backoffCount 4 n ∧ backoffCount 4 n < 64))

/-! ### Received frames -/

/-- A heard HELLO that shows no conflict, and a heard RECORD frame, change only what LC keeps of every heard
frame: the time it was heard, a link that was ISOLATED JOINED again, and while record spacing is held one more frame
heard. The third frame releases the spacing, and a RECORD frame at the head then begins its countdown. A heard HELLO
with the part's own station id and another start number withdraws the link: LISTEN, settle and status times stop and
no frame waits. Where it speaks of when frame bytes are taken (log 10) and of the count drawn (log 6), that is the
model's choice. -/
def Obligations.HelloAndRecordAreHeard : Prop :=
  ∀ (s : State) (hd : Header) (start : BitVec 16) (product : Byte),
    (Hears s hd (.hello start product) → conflicts hd.source.toNat start s = false →
      exec (.hello hd start product) s = .next (heard s)) ∧
    (∀ (number : BitVec 32) (index : Byte) (chunk : List Byte), Hears s hd (.record number index chunk) →
      exec (.record hd number index chunk) s = .next (heard s)) ∧
    (s.lc.spacing.held = false → heard s = heardPlain s) ∧
    (s.lc.spacing.held = true → s.lc.spacing.count < 2 →
      heard s = { heardPlain s with lc := { (heardPlain s).lc with
        spacing := { s.lc.spacing with count := s.lc.spacing.count + 1 } } }) ∧
    (s.lc.spacing.held = true → 2 ≤ s.lc.spacing.count → s.lc.queue = [] →
      heard s = { heardPlain s with lc := { (heardPlain s).lc with
        spacing := { s.lc.spacing with count := 3, held := false } } }) ∧
    (∀ f rest, s.lc.spacing.held = true → 2 ≤ s.lc.spacing.count → s.lc.queue = f :: rest →
      s.lc.countdown = none → s.lc.tx = none → s.lc.gapMet = false →
      heard s = { heardPlain s with
        draws := s.draws + 1,
        lc := { (heardPlain s).lc with
          spacing := { s.lc.spacing with count := 3, held := false },
          countdown := some { left := backoffCount f.cls (Config.backoffDraw s.draws), counting := false,
                              slotFrom := s.now } } }) ∧
    (Hears s hd (.hello start product) → s.cfg.params.station = some hd.source.toNat →
      start ≠ s.lc.startNumber → s.lc.link ≠ .withdrawn → s.warned = false →
      (s.lc.queue = [] → exec (.hello hd start product) s = .next { heard s with lc := { (heard s).lc with
        link := .withdrawn, countdown := none, listenAt := none, settleAt := none, lastStatusAt := none } }) ∧
      (∃ t : State, exec (.hello hd start product) s = .next t ∧ t.lc.queue = []))

/-- A heard STATUS of another bowser puts its claim on the claims list, with its cover and the time heard, or takes
the station off it; every other claim stays, but for the one longest unheard when a claim is added to 16. A STATUS of
a collector or a bulk station, and one with the part's own station id and start number, leave the list. One with the
own station id and another start number withdraws the link, and no frame waits. A heard DRAW
of its sender is merged into the machine's entry, which becomes fresh; a heard ANSWER of its sender is merged draw by
draw. One with machine id 0 or a draw of another bowser changes nothing of the table. A merge ages the list and puts
the draw in its place among the newest 8, unless it has no volume, is too old or is there already; an entry is made
for a machine without one, in a full table in the place of the entry not busy that was longest unused. Where it
speaks of when frame bytes are taken (log 10) and of a claim flag that is neither 0 nor 1 (log 58), that is the model's
choice. -/
def Obligations.HeardClaimsAndDrawsAreKept : Prop :=
  (∀ (s : State) (hd : Header) (b : StatusBody), Hears s hd (.status b) →
    (1 ≤ hd.source.toNat → hd.source.toNat ≤ 47 → s.cfg.params.station ≠ some hd.source.toNat →
      exec (.status hd b) s = .next { heard s with lc := { (heard s).lc with
        claims := claimsAfter s.lc.claims hd.source.toNat b.cover.toNat s.now (b.claimFlag != 0) } }) ∧
    (48 ≤ hd.source.toNat → s.cfg.params.station ≠ some hd.source.toNat →
      exec (.status hd b) s = .next (heard s)) ∧
    (s.cfg.params.station = some hd.source.toNat → b.startNumber = s.lc.startNumber →
      exec (.status hd b) s = .next (heard s)) ∧
    (s.cfg.params.station = some hd.source.toNat → b.startNumber ≠ s.lc.startNumber → s.lc.link ≠ .withdrawn →
      s.warned = false →
      (s.lc.queue = [] → exec (.status hd b) s = .next { heard s with lc := { (heard s).lc with
        link := .withdrawn, countdown := none, listenAt := none, settleAt := none, lastStatusAt := none } }) ∧
      (∃ t : State, exec (.status hd b) s = .next t ∧ t.lc.queue = []))) ∧
  (∀ (l : List Claim) (station cover now : Nat),
    (∀ c, c ∈ claimsAfter l station cover now false ↔ c ∈ l ∧ c.station ≠ station) ∧
    (l.length < 16 ∨ (∃ c ∈ l, c.station = station) →
      ∀ c, c ∈ claimsAfter l station cover now true ↔
        c = { station := station, cover := cover, heardAt := now } ∨ c ∈ l ∧ c.station ≠ station) ∧
    (16 ≤ l.length → (∀ c ∈ l, c.station ≠ station) → ∃ gone ∈ l,
      (∀ c ∈ l, gone.heardAt < c.heardAt ∨ gone.heardAt = c.heardAt ∧ gone.station ≤ c.station) ∧
      ∀ c, c ∈ claimsAfter l station cover now true ↔
        c = { station := station, cover := cover, heardAt := now } ∨ c ∈ l ∧ c.station ≠ gone.station)) ∧
  (∀ (s : State) (hd : Header) (m : BitVec 24) (d : WireDraw) (ds : List WireDraw),
    (Hears s hd (.draw m d) → m ≠ 0 → d.bowser = hd.source →
      exec (.draw hd m d) s = .next { heard s with mt := s.mt.touch m.toNat s.lc.clock (fun e =>
        { e.merge s.lc.clock (Draw.ofWire d) with fresh := some s.lc.clock }) }) ∧
    (Hears s hd (.draw m d) → m = 0 ∨ d.bowser ≠ hd.source → exec (.draw hd m d) s = .next (heard s)) ∧
    (Hears s hd (.answer m ds) → m ≠ 0 → (∀ x ∈ ds, x.bowser = hd.source) →
      exec (.answer hd m ds) s = .next { heard s with mt := s.mt.touch m.toNat s.lc.clock (fun e =>
        e.mergeAll s.lc.clock (ds.map Draw.ofWire)) }) ∧
    (Hears s hd (.answer m ds) → m = 0 ∨ (∃ x ∈ ds, x.bowser ≠ hd.source) →
      exec (.answer hd m ds) s = .next (heard s))) ∧
  (∀ (e : Entry) (clock : Nat) (d : Draw),
    (e.merge clock d).draws =
      (let aged := e.draws.filter (fun x => decide (clock ≤ x.time + e.window))
       if d.volume = 0 ∨ d.time + e.window < clock ∨ (∃ x ∈ aged, x.bowser = d.bowser ∧ x.time = d.time) then aged
       else (insertDraw d aged).take 8) ∧
    { e.merge clock d with draws := e.draws } = e) ∧
  (∀ (mt : Mt) (m clock : Nat) (f : Entry → Entry), (∀ e, (f e).machine = e.machine) →
    (∀ e, mt.find m = some e → (mt.touch m clock f).find m = some (f e) ∧
      (mt.touch m clock f).evictions = mt.evictions ∧
      ∀ n, n ≠ m → (mt.touch m clock f).find n = mt.find n) ∧
    (mt.find m = none → mt.entries.length < 48 →
      (mt.touch m clock f).find m = some (f { machine := m, fixed := none, draws := [], fresh := none,
                                              lastUse := clock, busy := none }) ∧
      (mt.touch m clock f).evictions = mt.evictions ∧
      ∀ n, n ≠ m → (mt.touch m clock f).find n = mt.find n) ∧
    (∀ gone, mt.find m = none → 48 ≤ mt.entries.length → evictionChoice mt.entries = some gone →
      (mt.entries.filter (fun x => x.machine != gone.machine)).length < 48 →
      gone ∈ mt.entries ∧ gone.busy = none ∧
      (∀ e ∈ mt.entries, e.busy = none →
        gone.lastUse < e.lastUse ∨ gone.lastUse = e.lastUse ∧ gone.machine ≤ e.machine) ∧
      (mt.touch m clock f).find m = some (f { machine := m, fixed := none, draws := [], fresh := none,
                                              lastUse := clock, busy := none }) ∧
      (mt.touch m clock f).evictions = satInc max16 mt.evictions ∧
      ∀ n, n ≠ m → n ≠ gone.machine → (mt.touch m clock f).find n = mt.find n))

/-- A heard QUERY about a machine of which the part has own draws in the window is answered: one ANSWER frame of
class 1 waits, carrying the newest one or two of them; with none, no frame is asked for. Where it speaks of when
frame bytes are taken (log 10) and the numbers drawn (log 6), that is the model's choice. -/
def Obligations.HeardQueryIsAnswered : Prop :=
  ∀ (s : State) (hd : Header) (m : BitVec 24) (w : Byte) (e : Entry) (id : Nat) (own : List Draw),
    Hears s hd (.query m w) → m ≠ 0 → 1 ≤ w.toNat → w.toNat ≤ 168 → s.mt.find m.toNat = some e →
    s.cfg.params.station = some id → own = ownDraws id s.lc.clock w.toNat (e.aged s.lc.clock).draws →
    (own ≠ [] → s.warned = false → s.lc.link = .joined → s.lc.queue = [] → s.lc.countdown = none →
      s.lc.gapMet = false →
      ∃ t : State, exec (.query hd m w) s = .next t ∧ t.lc.queue = [answerFrame id m.toNat own] ∧
        t.lc.tx = none ∧ (∃ c, t.lc.countdown = some c ∧ c.left < 8 ∧ c.counting = false) ∧
        t.ju = s.ju ∧ t.hc = s.hc ∧ t.su = s.su) ∧
    (own = [] → ∃ mt : Mt, exec (.query hd m w) s = .next { heard s with mt := mt } ∧
      mt = s.mt.upd m.toNat (fun x => x.aged s.lc.clock))

end

section

open Sys2Proof Sys2Proof.Machine

/-- A heard MARK sets the site clock by its collector time T and makes it sure. Within 2 s the clock's value
stands and counts on; a later T moves it to T and a clock write is asked for; an earlier T holds it until T
catches up. Nothing else changes while no price book is due and the MARK is aimed at another bowser. Where it
speaks of when frame bytes are taken (log 10) and of when the next second counts (log 16), that is the model's
choice. -/
def Obligations.MarkSetsTheSiteClock : Prop :=
  ∀ (s : State) (hd : Header) (target : Byte) (n time : BitVec 32), Hears s hd (.mark target n time) →
    s.cfg.params.station ≠ some target.toNat →
    s.pbu.banks.one.state ≠ .pending → s.pbu.banks.two.state ≠ .pending →
    (s.lc.clock ≤ time.toNat + 2 → time.toNat ≤ s.lc.clock + 2 → s.lc.hold = none →
      exec (.mark hd target n time) s = .next { heard s with lc := { (heard s).lc with sure := true } }) ∧
    (s.lc.clock ≤ time.toNat + 2 → time.toNat ≤ s.lc.clock + 2 → s.lc.hold.isSome = true →
      exec (.mark hd target n time) s = .next { heard s with lc := { (heard s).lc with
        sure := true, hold := none, nextCount := s.now + sec 1 } }) ∧
    (s.lc.clock + 2 < time.toNat →
      ∃ t : State, exec (.mark hd target n time) s = .next t ∧
        t.lc = { (heard s).lc with clock := time.toNat, sure := true, hold := none, nextCount := s.now + sec 1 } ∧
        t.sc = (scAsk .lc { heard s with lc := t.lc }).sc ∧ t.su = s.su ∧ t.pbu = s.pbu ∧ t.mt = s.mt) ∧
    (time.toNat + 2 < s.lc.clock →
      exec (.mark hd target n time) s = .next { heard s with lc := { (heard s).lc with
        sure := true, hold := some (s.now + sec (s.lc.clock - time.toNat)) } })

/-- A MARK aimed at the part: one at or below the mark changes nothing of the journal; one up to the highest
closed sequence becomes the mark, the records up to it leave the journal, the waiting list is served, the mark's
write is asked for, and JU chooses an offer; one beyond that only counts MARK_AHEAD. The clock is set before the
journal takes the mark (the model's choice, log 17). Where it speaks of when frame bytes are taken (log 10), that is
the model's choice too. -/
def Obligations.MarkCollectsTheRecords : Prop :=
  ∀ (s : State) (n : Nat),
    (n ≤ s.ju.mark → takeMark n s = s) ∧
    (s.ju.mark < n → n ≤ s.ju.highestClosed → takeMark n s = chooseOffer (writeListAdd .mark (serveWaiting
      { s with ju := { s.ju with recs := s.ju.recs.drop (n - s.ju.mark), mark := n } }))) ∧
    (s.ju.mark < n → n ≤ s.ju.highestClosed → s.ju.waiting = [] →
      (takeMark n s).ju.mark = n ∧ (takeMark n s).ju.counter = s.ju.counter ∧
      (takeMark n s).ju.recs.map JRec.number = (s.ju.recs.drop (n - s.ju.mark)).map JRec.number ∧
      (takeMark n s).su = s.su ∧ (takeMark n s).mt = s.mt) ∧
    (s.ju.highestClosed < n →
      takeMark n s = { s with ju := { s.ju with markAhead := satInc max16 s.ju.markAhead } }) ∧
    (∀ (hd : Header) (target : Byte) (number time : BitVec 32), Hears s hd (.mark target number time) →
      s.cfg.params.station = some target.toNat → number.toNat = n →
      exec (.mark hd target number time) s = .next (takeMark n (clockMark time.toNat (heard s))))

/-- A begin fragment opens a reassembly, an open one having been abandoned first. A book that passes the three tests
makes the target bank LOADING with the book's number, effective time and count, a switch that waited for the book it
replaces is withdrawn, and a bank write is asked for; any other book only counts IGNORED_BOOK. An entry fragment in
its turn is added to the load, up to eight; the tenth fragment without the end flag abandons the reassembly. A
fragment out of its turn abandons it and counts FRAGMENT, and one of no open reassembly or of another collector only
counts. Where it speaks of when frame bytes are taken (log 10), that is the model's choice. -/
def Obligations.PriceBookLoadBegins : Prop :=
  ∀ (s : State) (hd : Header) (r : Reassembly),
    (∀ n eff count, Hears s hd (.price 0 (.begins n eff count)) → hd.beginFlag = true → hd.endFlag = false →
      let u := if s.lc.reassembly.isSome then abandonReassembly (heard s) else heard s
      exec (.price hd 0 (.begins n eff count)) s = .next (bookBegin n.toNat eff.toNat count.toNat { u with
        lc := { u.lc with
          reassembly := some { source := hd.source.toNat, next := 1, accepted := 1, lastAt := s.now } } })) ∧
    (s.pbu.load = none → abandonReassembly s = { s with lc := { s.lc with reassembly := none } }) ∧
    (∀ l, s.pbu.load = some l → abandonReassembly s = askBanks { s with
      lc := { s.lc with reassembly := none },
      pbu := { s.pbu with
        banks := s.pbu.banks.put l.target Bank.empty, load := none, badBook := satInc max16 s.pbu.badBook } }) ∧
    (∀ n eff count,
      (beginAccepted s n count = true ↔ n ≠ 0 ∧ 1 ≤ count ∧ count ≤ 16 ∧ s.pbu.switchState ≠ .writing ∧
        (∀ k, s.pbu.banks.number (· == .active) = some k → k < n) ∧
        (∀ k, s.pbu.banks.number (fun x => x == .pending || x == .loading) = some k → k ≤ n)) ∧
      (beginAccepted s n count = true → bookBegin n eff count s = askBanks { s with
        ju := { s.ju with waiting := if s.pbu.switchState = .waiting
          then s.ju.waiting.filter (fun x => match x with | .priceBook _ _ => false | _ => true)
          else s.ju.waiting },
        pbu := { s.pbu with
          switchState := if s.pbu.switchState = .waiting then .idle else s.pbu.switchState,
          banks := s.pbu.banks.put s.pbu.banks.target (Bank.mk .loading (some
            { number := n, effective := eff, count := count, entries := [], crc := 0 })),
          load := some { target := s.pbu.banks.target, received := 0, entries := [] } } }) ∧
      (beginAccepted s n count = false → bookBegin n eff count s = { s with
        pbu := { s.pbu with ignoredBook := satInc max16 s.pbu.ignoredBook } })) ∧
    (∀ i e f, Hears s hd (.price i (.entries e f)) → s.lc.reassembly = some r → r.source = hd.source.toNat →
      i.toNat = r.next → hd.beginFlag = false → hd.endFlag = false →
      let u := { heard s with
        lc := { (heard s).lc with
          reassembly := some { r with next := r.next + 1, accepted := r.accepted + 1, lastAt := s.now } },
        pbu := { s.pbu with load := s.pbu.load.map (fun l => { l with
          received := satInc 9 l.received,
          entries := if l.received < 8 then l.entries ++ [e, f] else l.entries }) } }
      exec (.price hd i (.entries e f)) s = .next (if r.accepted = 9 then abandonReassembly u else u)) ∧
    (∀ i b, Hears s hd (.price i b) → s.lc.reassembly = some r → r.source = hd.source.toNat →
      i.toNat ≠ r.next → hd.beginFlag = false →
      exec (.price hd i b) s = .next (updCounters (fun c => { c with fragment := satInc max16 c.fragment })
        (abandonReassembly (heard s)))) ∧
    (∀ i b, Hears s hd (.price i b) →
      hd.beginFlag = true ∧ i.toNat ≠ 0 ∨ hd.beginFlag = false ∧
        (∀ x, s.lc.reassembly = some x → x.source ≠ hd.source.toNat) →
      exec (.price hd i b) s = .next (updCounters (fun c => { c with fragment := satInc max16 c.fragment })
        (heard s)))

/-- The end fragment of a load that passes the three checks makes the book PENDING; with the site clock not sure no
switch follows. One that fails a check leaves the bank EMPTY and counts BAD_BOOK. The switch test: a PENDING book
whose time a sure clock has reached asks for a PRICEBOOK record of its number and the ACTIVE one's, and the switch is
WRITING with a free slot, WAITING without. With the record written the PENDING bank is ACTIVE, the ACTIVE one STANDBY,
and a bank write is asked for; with its write failed the switch is BLOCKED. The switch test follows each second that
the site clock counts, and a MARK within 2 s of the clock that ends a hold or makes the clock sure. Where it speaks of
the due time a time-driven command stands for (log 2), of when frame bytes are taken (log 10) and of when the next
second counts (log 16), that is the model's choice. -/
def Obligations.PriceBookLoadEnds : Prop :=
  (∀ (s : State) (crc : Half) (l : Load) (k : Book), s.pbu.load = some l →
    loadedBook (s.pbu.banks.get l.target) l crc = some k →
    (k.complete l.received = true → s.lc.sure = false →
      (bookEnd crc s).pbu.banks = s.pbu.banks.put l.target { state := .pending, book := some k } ∧
      (bookEnd crc s).pbu.load = none ∧ (bookEnd crc s).pbu.badBook = s.pbu.badBook) ∧
    (k.complete l.received = false →
      (bookEnd crc s).pbu.banks = s.pbu.banks.put l.target Bank.empty ∧
      (bookEnd crc s).pbu.load = none ∧
      (bookEnd crc s).pbu.badBook = satInc max16 s.pbu.badBook) ∧
    (∀ (hd : Header) (i : Byte) (r : Reassembly), Hears s hd (.price i (.ends crc)) →
      hd.beginFlag = false → hd.endFlag = true → s.lc.reassembly = some r →
      r.source = hd.source.toNat → i.toNat = r.next →
      exec (.price hd i (.ends crc)) s
        = .next (bookEnd crc { heard s with lc := { (heard s).lc with reassembly := none } }))) ∧
  (∀ s : State, s.power = .released → s.lc.hold = none → exec .siteClockCount s = .next (switchTest { s with
    now := max s.now s.lc.nextCount,
    lc := { s.lc with clock := satInc max32 s.lc.clock, nextCount := s.lc.nextCount + sec 1 } })) ∧
  (∀ (s : State) (hd : Header) (target : Byte) (n time : BitVec 32), Hears s hd (.mark target n time) →
    s.cfg.params.station ≠ some target.toNat → s.lc.clock ≤ time.toNat + 2 → time.toNat ≤ s.lc.clock + 2 →
    s.lc.hold.isSome = true →
    exec (.mark hd target n time) s = .next (switchTest { heard s with lc := { (heard s).lc with
      sure := true, hold := none, nextCount := s.now + sec 1 } })) ∧
  (∀ (s : State) (hd : Header) (target : Byte) (n time : BitVec 32), Hears s hd (.mark target n time) →
    s.cfg.params.station ≠ some target.toNat → s.lc.clock ≤ time.toNat + 2 → time.toNat ≤ s.lc.clock + 2 →
    s.lc.hold = none → s.lc.sure = false →
    exec (.mark hd target n time) s = .next (switchTest { heard s with lc := { (heard s).lc with
      sure := true } })) ∧
  (∀ (s : State) (i : BankId) (k : Book), s.pbu.switchState = .idle →
    s.pbu.banks.which (· == .pending) = some i → (s.pbu.banks.get i).book = some k →
    (s.lc.sure = false ∨ s.lc.clock < k.effective → switchTest s = s) ∧
    (s.lc.sure = true → k.effective ≤ s.lc.clock → s.warned = false → 0 < s.ju.free →
      let u := takeRecord (.priceBook k.number ((s.pbu.banks.number (· == .active)).getD 0)) s
      switchTest s = { u with pbu := { s.pbu with switchState := .writing } }) ∧
    (s.lc.sure = true → k.effective ≤ s.lc.clock → s.warned = false → s.ju.free = 0 →
      (∀ x ∈ s.ju.waiting, ∀ a b, x ≠ .priceBook a b) →
      switchTest s = { s with
        ju := { s.ju with
          waiting := s.ju.waiting ++ [.priceBook k.number ((s.pbu.banks.number (· == .active)).getD 0)] },
        pbu := { s.pbu with switchState := .waiting } })) ∧
  (∀ s : State,
    switchEnd true s = askBanks { s with pbu := { s.pbu with
      banks := ⟨s.pbu.banks.one.switched, s.pbu.banks.two.switched⟩, switchState := .idle } } ∧
    switchEnd false s = { s with pbu := { s.pbu with switchState := .blocked } }) ∧
  (∀ book, (Bank.mk .pending book).switched = Bank.mk .active book ∧
    (Bank.mk .active book).switched = Bank.mk .standby book)

/-- A DELIVERY for the part, of 100 L to 40,000 L and not remembered, with a free slot and no warning: the book rises
by it, its pair is remembered, and a DELIVERY record takes the next number. A volume outside that range counts
BAD_DELIVERY, a remembered pair DUPLICATE_DELIVERY, and nothing else changes. With no free slot, or after the warning,
the delivery is not remembered and the book stands: NOT_RECORDED counts, and the site line shows it for 10 s. Where it
speaks of when frame bytes are taken (log 10) and the book beyond 48 bits (log 7), that is the model's choice. -/
def Obligations.DeliveryRaisesTheBook : Prop :=
  ∀ (s : State) (hd : Header) (target : Byte) (n : BitVec 16) (v : BitVec 24) (time : BitVec 32),
    Hears s hd (.delivery target n v time) → s.cfg.params.station = some target.toNat →
    (10000 ≤ v.toNat → v.toNat ≤ 4000000 → s.su.memory.contains (hd.source.toNat, n.toNat) = false →
      s.warned = false → 0 < s.ju.free →
      ∃ t : State, exec (.delivery hd target n v time) s = .next t ∧
        t.su.book = bookAdd s.su.book ((v.toNat : Int) * 10000) ∧
        t.su.memory = rememberPair (hd.source.toNat, n.toNat) s.su.memory ∧
        t.su.lastDelivery = some (hd.source.toNat, n.toNat, v.toNat, time.toNat) ∧
        t.ju.counter = s.ju.counter + 1 ∧
        t.ju.recs = s.ju.recs ++ [JRec.mk (s.ju.counter + 1) s.lc.clock s.lc.sure
          (.delivery hd.source.toNat n.toNat v.toNat (bookCl t.su.book)
            (overCapacity s.cfg.params t.su.book)) .opened 0 none] ∧
        t.lc = (heard s).lc ∧ t.hc = s.hc ∧ t.mt = s.mt) ∧
    (v.toNat < 10000 ∨ 4000000 < v.toNat →
      exec (.delivery hd target n v time) s = .next { heard s with su := { s.su with
        badDelivery := satInc max16 s.su.badDelivery } }) ∧
    (10000 ≤ v.toNat → v.toNat ≤ 4000000 → s.su.memory.contains (hd.source.toNat, n.toNat) = true →
      exec (.delivery hd target n v time) s = .next { heard s with su := { s.su with
        duplicateDelivery := satInc max16 s.su.duplicateDelivery } }) ∧
    (10000 ≤ v.toNat → v.toNat ≤ 4000000 → s.su.memory.contains (hd.source.toNat, n.toNat) = false →
      s.warned = true ∨ s.ju.free = 0 →
      exec (.delivery hd target n v time) s = .next { heard s with su := { s.su with
        notRecorded := satInc max16 s.su.notRecorded, notRecordedUntil := some (s.now + sec 10) } })

/-- A frame that fails a check counts in the first counter of its check and does nothing else: LENGTH, CRC and
KIND on its bytes, LENGTH on its fields, SPARE, SOURCE and OWN_ID on either. A frame that comes as its bytes and one
that comes as its fields meet the same checks from the fourth on, and one that passes them is heard. Where it speaks
of when frame bytes are taken (log 10), that is the model's choice. -/
def Obligations.FramesThatFailACheckAreOnlyCounted : Prop :=
  (∀ s : State, s.power = .released → receiving s = true →
    (∀ line : List Byte,
      (judgeBytes line = .badLength → exec (.badFrame line) s = .next (updCounters
        (fun c => { c with length := satInc max16 c.length }) (markJudged s))) ∧
      (judgeBytes line = .badCrc → exec (.badFrame line) s = .next (updCounters
        (fun c => { c with crc := satInc max16 c.crc }) (markJudged s))) ∧
      (judgeBytes line = .badKind → exec (.badFrame line) s = .next (updCounters
        (fun c => { c with kind := satInc max16 c.kind }) (markJudged s))) ∧
      (∀ hd body, judgeBytes line = .good hd body →
        exec (.badFrame line) s = .next (checkFrame hd body (markJudged s)))) ∧
    (∀ (hd : Header) (body : FrameBody),
      (fieldsLengthOk hd body = false → exec (frameCommand hd body) s = .next (updCounters
        (fun c => { c with length := satInc max16 c.length }) (markJudged s))) ∧
      (fieldsLengthOk hd body = true →
        exec (frameCommand hd body) s = .next (checkFrame hd body (markJudged s))))) ∧
  (∀ s : State, s.power = .released → receiving s = false → ∀ (line : List Byte) (hd : Header) (body : FrameBody),
    exec (.badFrame line) s = .next s ∧ exec (frameCommand hd body) s = .next s) ∧
  (∀ (s : State) (hd : Header) (body : FrameBody),
    (spareOk hd body = false → checkFrame hd body (markJudged s) = updCounters
      (fun c => { c with spare := satInc max16 c.spare }) (markJudged s)) ∧
    (spareOk hd body = true → sourceOk hd.source.toNat body = false →
      checkFrame hd body (markJudged s) = updCounters
        (fun c => { c with source := satInc max16 c.source }) (markJudged s)) ∧
    (spareOk hd body = true → sourceOk hd.source.toNat body = true →
      ownIdOk s.cfg.params.station hd.source.toNat body = false →
      checkFrame hd body (markJudged s) = updCounters
        (fun c => { c with ownId := satInc max16 c.ownId }) (markJudged s)) ∧
    (spareOk hd body = true → sourceOk hd.source.toNat body = true →
      ownIdOk s.cfg.params.station hd.source.toNat body = true →
      checkFrame hd body (markJudged s) = passOn hd body (heard s)))

/-! ### The link's times and the site clock -/

/-- The listen time ends in ANNOUNCE with one HELLO waiting, carrying the start number and product; and 120 s with
no frame heard isolate a joined link. Where it speaks of the due time a time-driven command stands for (log 2) and
the numbers drawn (log 6), that is the model's choice. -/
def Obligations.ListenAndIsolationTimes : Prop :=
  ∀ s : State, s.power = .released → s.warned = false →
    (∀ d, s.lc.link = .listen → s.lc.listenAt = some d → s.lc.queue = [] → s.lc.tx = none →
      s.lc.countdown = none → s.lc.gapMet = false → s.lc.spacing.held = false →
      ∃ c : Countdown, c.left < 8 ∧ c.counting = false ∧ exec .listenTime s = .next { s with
        now := max s.now d, draws := s.draws + 1, lc := { s.lc with
          link := .announce, listenAt := none, countdown := some c,
          queue := [TxFrame.mk 1 .hello (frameBytes (wholeHeader (stationId s))
            (.hello s.lc.startNumber (BitVec.ofNat 8 s.cfg.params.product)))] } }) ∧
    (s.lc.link = .joined → exec .isolationTime s = .next { s with
      now := max s.now (max (s.lc.lastHeard.getD 0) s.lc.joinedAt + sec 120),
      lc := { s.lc with link := .isolated } })

/-- The settle time ends in JOINED and a first STATUS is made; offering then runs. At each status period, 30 s, or
10 s with a claim, another is made. For a STATUS the claim is set again from available stock and cover. It carries
start number, available stock, cover, claim, queue position, and JU's two figures, as they stand. It takes its place
by class, or, with a STATUS waiting, it is put in that one's place, whose countdown goes on. Where it speaks of the
due time a time-driven command stands for (log 2) and the numbers drawn (log 6), that is the model's choice. -/
def Obligations.StatusFramesAreMade : Prop :=
  (∀ (s : State) (d : Nat), s.power = .released → s.warned = false →
    (s.lc.link = .announce → s.lc.settleAt = some d →
      exec .settleTime s = .next (chooseOffer (makeStatus { s with
        now := max s.now d,
        lc := { s.lc with link := .joined, settleAt := none, joinedAt := max s.now d } }))) ∧
    (s.lc.link = .joined ∨ s.lc.link = .isolated → s.lc.lastStatusAt = some d →
      exec .statusPeriod s = .next (makeStatus { s with
        now := max s.now (d + (if s.su.claim then sec 10 else sec 30)) }))) ∧
  (∀ (s u : State) (claim : Bool) (bytes : List Byte), s.warned = false →
    s.lc.link = .joined ∨ s.lc.link = .isolated →
    claim = (decide (availableGiven s < reorderCl s.cfg.params) || decide (cover s < s.cfg.params.reorderCover)) →
    u = { s with su := { s.su with claim := claim }, lc := { s.lc with lastStatusAt := some s.now } } →
    bytes = frameBytes (wholeHeader (stationId s)) (.status
      { startNumber := s.lc.startNumber, stock := BitVec.ofNat 24 (min 16777215 (availableGiven s)),
        cover := BitVec.ofNat 16 (cover s), claimFlag := if claim then 1 else 0,
        position := BitVec.ofNat 8 (queuePosition u), uncollected := BitVec.ofNat 16 (s.ju.counter - s.ju.mark),
        highestClosed := BitVec.ofNat 32 s.ju.highestClosed }) →
    ((∀ f ∈ s.lc.queue, f.owner ≠ .status) → s.lc.queue.length < 16 →
      makeStatus s = placeFrame (TxFrame.mk 3 .status bytes) u) ∧
    ((∀ f ∈ s.lc.queue, f.owner ≠ .status) → 16 ≤ s.lc.queue.length → makeStatus s = u) ∧
    ((∃ f ∈ s.lc.queue, f.owner = .status) → makeStatus s = { u with lc := { u.lc with
      queue := s.lc.queue.map (fun f => if f.owner = .status then { f with bytes := bytes } else f) } }))

/-- 2 s without a fragment abandon an open reassembly, and a load in progress ends with its bank EMPTY and
BAD_BOOK counted; 30 s take a claim off the list. Where it speaks of the due time a time-driven command stands for
(log 2), that is the model's choice. -/
def Obligations.ReassemblyAndClaimsExpire : Prop :=
  ∀ s : State, s.power = .released →
    (∀ r, s.lc.reassembly = some r → s.pbu.load = none → exec .reassemblyTimeLimit s = .next { s with
      now := max s.now (r.lastAt + sec 2), lc := { s.lc with reassembly := none } }) ∧
    (∀ r l, s.lc.reassembly = some r → s.pbu.load = some l →
      ∃ t : State, exec .reassemblyTimeLimit s = .next t ∧ t.lc = { s.lc with reassembly := none } ∧
        t.pbu.banks = s.pbu.banks.put l.target Bank.empty ∧ t.pbu.load = none ∧
        t.pbu.badBook = satInc max16 s.pbu.badBook) ∧
    (∀ c station, s.lc.claims.find? (fun c => c.station == station) = some c →
      exec (.claimsListEntryExpiry station) s = .next { s with
        now := max s.now (c.heardAt + sec 30),
        lc := { s.lc with claims := s.lc.claims.filter (fun c => c.station != station) } })

/-- The site clock counts one second, up to its largest value, while it does not hold; a hold ends and the next
count comes a second later; and each 60 s a clock write is asked for. Stated for a part with no price book
PENDING, so that no switch follows. Where it speaks of the due time a time-driven command stands for (log 2), that
is the model's choice. -/
def Obligations.SiteClockRuns : Prop :=
  ∀ s : State, s.power = .released → s.pbu.banks.one.state ≠ .pending → s.pbu.banks.two.state ≠ .pending →
    (s.lc.hold = none → exec .siteClockCount s = .next { s with
      now := max s.now s.lc.nextCount,
      lc := { s.lc with clock := satInc max32 s.lc.clock, nextCount := s.lc.nextCount + sec 1 } }) ∧
    (∀ d, s.lc.hold = some d → exec .siteClockCount s = .next s ∧
      exec .clockHoldEnd s = .next { s with
        now := max s.now d, lc := { s.lc with hold := none, nextCount := d + sec 1 } }) ∧
    exec .clockStoringPeriod s = .next (scAsk .lc { s with
      now := max s.now s.lc.nextStoring,
      lc := { s.lc with nextStoring := s.lc.nextStoring + sec 60 } })

end

section

open Sys2Proof Sys2Proof.Machine

/-! ### The reader heads -/

/-- A head's answer: one that is not accepted only counts; DONE to the read of a good fragment 0 leads to the read
of fragment 1, and DONE to HC's PROBE outside FLOWING ends it with the tag present and no miss. After 500 ms with
no accepted answer a READ at its fragment 0 ends TIMEOUT and the tag is not present. Where it speaks of the due
time a time-driven command stands for (log 2), that is the model's choice. -/
def Obligations.HeadAnswersDriveTheTransaction : Prop :=
  ∀ (s : State) (h : Hose) (ok : Bool) (num : Byte) (result : HeadResult), s.power = .released →
    (answerAccepted (s.tiu.get h) ok num.toNat s.now = false →
      exec (.headAnswer h ok num result) s = .next { s with
        tiu := s.tiu.set h
         { s.tiu.get h with headErrors := satInc max16 (s.tiu.get h).headErrors } }) ∧
    (∀ bytes fixed, answerAccepted (s.tiu.get h) ok num.toNat s.now = true → (s.tiu.get h).busy = .read0 →
      result = .done bytes → fixedPartOf bytes = some fixed →
      exec (.headAnswer h ok num result) s = .next { s with
        tiu := s.tiu.set h
         { s.tiu.get h with
          busy := .read1 fixed, number := nextCommand (s.tiu.get h).number,
          waiting := some { number := nextCommand (s.tiu.get h).number, op := .readFragment 1,
                            beginMark := false, endMark := false, sentAt := s.now } } }) ∧
    (∀ bytes, answerAccepted (s.tiu.get h) ok num.toNat s.now = true → (s.tiu.get h).busy = .probing →
      (s.tiu.get h).requester = some .hc → result = .done bytes → (s.hc.get h).state ≠ .flowing →
      (s.hc.get h).tagStep = .none →
      exec (.headAnswer h ok num result) s = .next { s with
        tiu := s.tiu.set h
         { s.tiu.get h with
          busy := .idle, requester := none, waiting := none, code := some .probeDone, present := true,
          misses := 0 } }) ∧
    (∀ c serial, (s.tiu.get h).waiting = some c → (s.tiu.get h).requester = some (.au serial) →
      (s.tiu.get h).busy = .read0 →
      exec (.headCommandTimeout h) s = .next { s with
        now := max s.now (c.sentAt + ms 500),
        tiu := s.tiu.set h
          { s.tiu.get h with
            busy := .idle, requester := none, waiting := none, code := some (.tagError .timeout),
            present := false } })

/-! ### The panel line -/

/-- A panel message whose number is the one last taken is acknowledged again and not taken again, whatever it
carries. PROVE, ACK, ADOPT and INSPECT without supervisor authority only raise "supervisor key required" for 3 s.
-/
def Obligations.PanelMessagesNotActedOn : Prop :=
  ∀ (s : State) (num : Byte) (h : Hose) (d : Nat) (id : BitVec 32) (page : Byte),
    (s.power = .released → s.pp.lastTaken = some num →
      ∀ i ∈ [Instr.digit num d, .hoseKey num h, .enter num, .clear num, .stop num, .prove num, .ack num,
        .adopt num, .inspect num, .keyPresented num id, .keyRemoved num, .panelStatus num page],
        exec i s = .next (answered num s)) ∧
    (Takes s num → s.pp.authority = false →
      ∀ i ∈ [Instr.prove num, .ack num, .adopt num, .inspect num],
        exec i s = .next { taken num s with pp := { (taken num s).pp with
          prompt := some (.supervisorKeyRequired, s.now + sec 3) } })

/-- DIGIT adds a digit up to six. ENTER with an empty entry does nothing, and any other empties it: a value below 200 cL
only raises "preset too small"; one from 200 cL is the pending preset of a selected hose in IDLE or in a session before
its grant; in AUTHORISED it replaces the preset term, and the limit and binding term are chosen afresh from the terms at
grant, in the HC and in the open record; in FLOWING, STOPPING, WRITING and HANG_WAIT it raises "preset not taken". CLEAR
empties the entry, and with it empty takes a pending preset back in IDLE and before a grant, and elsewhere does nothing;
a HOSE key outside a prove's SELECT selects its hose, empties the entry and closes the inspect page. -/
def Obligations.EntryKeys : Prop :=
  ∀ (s : State) (num : Byte) (h : Hose) (d : Nat), Takes s num →
    (s.au.digits.length < 6 → exec (.digit num d) s
      = .next { taken num s with au := { s.au with digits := s.au.digits ++ [d] } }) ∧
    (6 ≤ s.au.digits.length → exec (.digit num d) s = .next (taken num s)) ∧
    (s.prove.phase ≠ .select → exec (.hoseKey num h) s = .next { taken num s with
      pp := { (taken num s).pp with selected := h }, au := { s.au with digits := [] },
      inspect := { s.inspect with closeAt := none } }) ∧
    ((s.hc.get s.pp.selected).state = .idle → s.au.digits ≠ [] → 200 ≤ entryValue s.au.digits →
      exec (.enter num) s = .next { taken num s with au := { s.au with
        digits := [], preset := s.au.preset.set s.pp.selected (some (entryValue s.au.digits)) } }) ∧
    (s.au.digits ≠ [] → exec (.clear num) s = .next { taken num s with au := { s.au with digits := [] } }) ∧
    (s.au.digits = [] → (s.hc.get s.pp.selected).state = .idle →
      exec (.clear num) s = .next { taken num s with au := { s.au with
        preset := s.au.preset.set s.pp.selected none } }) ∧
    (s.au.digits = [] → exec (.enter num) s = .next (taken num s)) ∧
    (∀ state, state = (s.hc.get s.pp.selected).state →
      (s.au.digits ≠ [] → entryValue s.au.digits < 200 → state ≠ .proving →
        exec (.enter num) s = .next { taken num s with
          au := { s.au with digits := [] },
          pp := { (taken num s).pp with prompt := some (.presetTooSmall, s.now + sec 3) } }) ∧
      (s.au.digits ≠ [] → 200 ≤ entryValue s.au.digits →
        state = .identifying ∨ state = .awaitKey ∨ state = .querying →
        exec (.enter num) s = .next { taken num s with au := { s.au with
          digits := [], preset := s.au.preset.set s.pp.selected (some (entryValue s.au.digits)) } }) ∧
      (s.au.digits ≠ [] → 200 ≤ entryValue s.au.digits →
        state = .flowing ∨ state = .stopping ∨ state = .writing ∨ state = .hangWait →
        exec (.enter num) s = .next { taken num s with
          au := { s.au with digits := [] },
          pp := { (taken num s).pp with prompt := some (.presetNotTaken, s.now + sec 3) } }) ∧
      (s.au.digits = [] → state = .identifying ∨ state = .awaitKey ∨ state = .querying →
        exec (.clear num) s = .next { taken num s with au := { s.au with
          preset := s.au.preset.set s.pp.selected none } }) ∧
      (s.au.digits = [] →
        state = .authorised ∨ state = .flowing ∨ state = .stopping ∨ state = .writing ∨ state = .hangWait →
        exec (.clear num) s = .next (taken num s)) ∧
      (∀ (t : Terms) (best : Binding × Nat), s.au.digits ≠ [] → 200 ≤ entryValue s.au.digits →
        state = .authorised → (s.au.session.get s.pp.selected).terms = some t →
        best = chooseLimit (some (entryValue s.au.digits)) t →
        let k := s.pp.selected
        let u := { taken num s with
          au := { s.au with
            digits := [],
            session := s.au.session.set k { s.au.session.get k with presetTerm := some (entryValue s.au.digits) } },
          hc := s.hc.set k { s.hc.get k with
            limit := some best.2, binding := some best.1,
            stage := if (s.hc.get k).stage = Stage.full ∧ best.2 * 10000
                ≤ stdTotal s k + (s.cfg.params.hose.get k).slowDown * 10000 then .slow else (s.hc.get k).stage } }
        (∀ r, s.ju.slots.get k = some (.reserved r) → exec (.enter num) s = .next { u with ju := { s.ju with
          slots := s.ju.slots.set k (some (.reserved { r with limit := best.2, binding := best.1 })) } }) ∧
        (∀ n, s.ju.slots.get k = some (.numbered n) → exec (.enter num) s = .next { u with
          ju := s.ju.upd n (fun r => r.updDispense (fun d => { d with limit := best.2, binding := best.1 })) })))

/-- With authority: PROVE begins a prove in SELECT for 10 s; ACK clears the loss state and asks for a stock write;
INSPECT opens the page for 30 s with the value of this moment: at the number keyed, the entry then emptied, or with
an empty entry at sub-address 0x00, on an open page at the next one and after 0xFF at 0x00; ADOPT, with the gauge
settled and a free slot, takes an ADJUST record of gauge less book, and the book and loss state follow. Where it
speaks of the book beyond 48 bits (log 7) and of a number keyed above 255 (log 30), that is the model's choice. -/
def Obligations.SupervisorKeysAct : Prop :=
  ∀ (s : State) (num : Byte), Takes s num → s.pp.authority = true → s.warned = false →
    (s.prove.phase = .none → s.sc.fault = false →
      exec (.prove num) s = .next { taken num s with prove := { s.prove with
        phase := .select, supervisor := s.pp.key.getD 0, timerAt := some (s.now + sec 10) } }) ∧
    (s.su.loss = true → exec (.ack num) s
      = .next (askStock { taken num s with su := { s.su with loss := false, lowCount := 0 } })) ∧
    (s.su.loss = false → exec (.ack num) s = .next { taken num s with pp := { (taken num s).pp with
      prompt := some (.nothingToAcknowledge, s.now + sec 3) } }) ∧
    (s.au.digits = [] → s.inspect.closeAt = none → exec (.inspect num) s = .next { taken num s with
      inspect := { closeAt := some (s.now + sec 30), sub := 0, value := inspectValue s 0 } }) ∧
    (s.au.digits = [] → s.inspect.closeAt.isSome = true → exec (.inspect num) s = .next { taken num s with
      inspect := { closeAt := some (s.now + sec 30), sub := (s.inspect.sub + 1) % 256,
                   value := inspectValue s ((s.inspect.sub + 1) % 256) } }) ∧
    (∀ n, s.au.digits ≠ [] → n = min 255 (entryValue s.au.digits) →
      exec (.inspect num) s = .next { taken num s with
        au := { s.au with digits := [] },
        inspect := { closeAt := some (s.now + sec 30), sub := n, value := inspectValue s n } }) ∧
    (settled s = true → 0 < s.ju.free →
      ∃ t : State, exec (.adopt num) s = .next t ∧ t.ju.counter = s.ju.counter + 1 ∧
        t.ju.recs = s.ju.recs ++ [JRec.mk (s.ju.counter + 1) s.lc.clock s.lc.sure
          (.adjust (((s.su.standard.getD 0 : Nat) : Int) - bookCl s.su.book) (s.pp.key.getD 0)) .opened 0 none] ∧
        t.su.book = bookAdd s.su.book ((((s.su.standard.getD 0 : Nat) : Int) - bookCl s.su.book) * 10000) ∧
        t.su.loss = false ∧ t.su.lowCount = 0 ∧ t.lc = s.lc ∧ t.hc = s.hc)

/-- A key presented becomes the key in reader, the pending operator of the selected hose and, when it is on the
supervisor list, the authority; for a hose in AWAIT_KEY its session then goes on. Id 0 only raises "key not read". A
key removed, and a panel absent for 3 s, take key and authority away. A PANEL_STATUS asks for its page, beside the
pages asked for before and not yet sent, or with 0 for none. A message that fails its check counts PANEL_BAD. Where it
speaks of the due time a time-driven command stands for (log 2), of absences counted without an upper end (log 31) and
of pages asked for before (log 53), that is the model's choice. -/
def Obligations.KeyReaderAndPanelPresence : Prop :=
  ∀ (s : State) (num : Byte) (id : BitVec 32) (page : Byte) (message : List Byte),
    (Takes s num → id ≠ 0 → (s.hc.get s.pp.selected).state ≠ .awaitKey →
      exec (.keyPresented num id) s = .next { taken num s with pp := { (taken num s).pp with
        key := some id.toNat, authority := isSupervisor s.cfg.params id.toNat,
        pendingOp := s.pp.pendingOp.set s.pp.selected (some id.toNat) } }) ∧
    (Takes s num → id ≠ 0 → (s.hc.get s.pp.selected).state = .awaitKey →
      exec (.keyPresented num id) s = .next (afterKey s.pp.selected { taken num s with pp := { (taken num s).pp with
        key := some id.toNat, authority := isSupervisor s.cfg.params id.toNat,
        pendingOp := s.pp.pendingOp.set s.pp.selected (some id.toNat) } })) ∧
    (Takes s num → exec (.keyPresented num 0) s = .next { taken num s with pp := { (taken num s).pp with
      prompt := some (.keyNotRead, s.now + sec 3) } }) ∧
    (Takes s num → exec (.keyRemoved num) s = .next { taken num s with pp := { (taken num s).pp with
      key := none, authority := false } }) ∧
    (Takes s num → exec (.panelStatus num page) s = .next { taken num s with pp := { (taken num s).pp with
      page := page, pagesDue := if page = 0 then s.pp.pagesDue
        else s.pp.pagesDue.filter (fun p => p != page) ++ [page] } }) ∧
    (s.power = .released → judgePanel message = .bad → exec (.panelBad message) s = .next { s with
      pp := { s.pp with panelBad := satInc max16 s.pp.panelBad } }) ∧
    (s.power = .released → s.pp.present = true → exec .panelAbsent s = .next { s with
      now := max s.now (s.pp.lastGood + sec 3),
      pp := { s.pp with present := false, absences := s.pp.absences + 1, key := none, authority := false } })

/-- A changed hose record goes 100 ms after it last went, and the panel then holds it; so does the diagnostic page
that the panel shows, and with it every page asked for and not yet sent; during start-up the site line goes, reading
"starting"; the refresh comes each second and changes nothing outside the Panel Port; a prompt goes and the inspect
page closes at its time. Where it speaks of the due time a time-driven command stands for (log 2), of the refresh that
keeps its grid when late (log 18), of the items of a record (log 31), of the order of the records (log 62) and of text
and pages (log 53), that is the model's choice. -/
def Obligations.DisplayRecordsAreSent : Prop :=
  ∀ s : State,
    (s.power = .startUp → ∃ t : State, exec (.displayRecordSend .siteLine) s = .next t ∧
      t.pp.sent = [panelLine s.pp.outNumber (.siteLine (siteLine s))] ∧
      (siteLine s).starting = true ∧ t.pp.outNumber = s.pp.outNumber + 1 ∧ t.now = s.now ∧ t.lc = s.lc) ∧
    (∀ h r at', s.power = .released → s.pp.hoseSent.get h = some { record := r, sentAt := at' } →
      r ≠ hoseRecord s h →
      ∃ t : State, exec (.displayRecordSend (.hoseRecord h)) s = .next t ∧
        t.now = max s.now (at' + ms 100) ∧
        t.pp.hoseSent.get h = some { record := hoseRecord s h, sentAt := t.now } ∧
        { t with now := s.now, pp := s.pp } = s) ∧
    (∀ page x at', s.power = .released → pageShown s.pp = some page →
      s.pp.pageSent = some { record := x, sentAt := at' } → x ≠ (page, diagnostics s) →
      ∃ t : State, exec (.displayRecordSend .diagnosticPage) s = .next t ∧
        t.now = max s.now (at' + ms 100) ∧ t.pp.pagesDue = [] ∧
        (∀ p, p = page ∨ p ∈ s.pp.pagesDue → ∃ n,
          panelLine n (.diagnosticPage p (diagnostics { s with now := t.now })) ∈ t.pp.sent) ∧
        (s.pp.pagesDue = [] → t.pp.sent.head? = some
          (panelLine s.pp.outNumber (.diagnosticPage page (diagnostics { s with now := t.now })))) ∧
        { t with now := s.now, pp := s.pp } = s) ∧
    (s.power = .released → ∃ t : State, exec (.displayRecordSend .refresh) s = .next t ∧
      t.now = max s.now s.pp.refreshAt ∧ t.pp.refreshAt = s.pp.refreshAt + sec 1 ∧
      { t with now := s.now, pp := s.pp } = s) ∧
    (∀ p d, s.power = .released → s.pp.prompt = some (p, d) →
      exec .promptExpiry s = .next { s with now := max s.now d, pp := { s.pp with prompt := none } }) ∧
    (∀ d, s.power = .released → s.inspect.closeAt = some d →
      exec .inspectPageTimeout s = .next { s with
        now := max s.now d, inspect := { s.inspect with closeAt := none } })

/-! ### The meters -/

/-- The gross increment of a metered pulse is floor((W_p × F + carry) / 100,000) and the remainder is the new
carry. Across the ranges of W_p and F it is 950 to 105,000 µL, and the carry stays below 100,000. -/
def Obligations.GrossIncrementOfAPulse : Prop :=
  ∀ (d : MuDispense) (wp alpha : Nat),
    (d.meter wp alpha).1 = (wp * d.factors.get d.band + d.grossCarry) / 100000 ∧
    (d.meter wp alpha).2.2.grossCarry = (wp * d.factors.get d.band + d.grossCarry) % 100000 ∧
    (d.meter wp alpha).2.2.grossCarry < 100000 ∧
    (1000 ≤ wp → wp ≤ 100000 → 95000 ≤ d.factors.get d.band → d.factors.get d.band ≤ 105000 →
      d.grossCarry < 100000 → 950 ≤ (d.meter wp alpha).1 ∧ (d.meter wp alpha).1 ≤ 105000) ∧
    (∀ (mu : Mu) (isProve : Bool), (mu.opening isProve).grossCarry = 0) ∧
    d.factors.get d.band = (if d.band = 1 then d.factors.b1 else if d.band = 2 then d.factors.b2
      else if d.band = 3 then d.factors.b3 else d.factors.b4)

/-- The standard increment is floor((g × C10 + carry) / 10,000,000) with the remainder carried, C10 being
10,000,000 − α × (θ − 150); both are computed from the gross increment just found. -/
def Obligations.StandardIncrementOfAPulse : Prop :=
  ∀ (d : MuDispense) (wp alpha : Nat), 0 ≤ c10 alpha d.theta →
    ((d.meter wp alpha).2.1 : Int)
      = ((d.meter wp alpha).1 * (10000000 - (alpha : Int) * (d.theta - 150)) + d.stdCarry) / 10000000 ∧
    ((d.meter wp alpha).2.2.stdCarry : Int)
      = ((d.meter wp alpha).1 * (10000000 - (alpha : Int) * (d.theta - 150)) + d.stdCarry) % 10000000 ∧
    (d.meter wp alpha).2.2.std = satAdd48 d.std (d.meter wp alpha).2.1 ∧
    (d.meter wp alpha).2.2.gross = satAdd48 d.gross (d.meter wp alpha).1

/-- A forward pulse of a hose in FLOWING that does not reach the limit: the meter counts and meters it, the book falls
and the current hour rises by the standard increment, a stock write under way is to be asked for again, the open
record grows by both, the idle timer starts afresh, a stage FULL becomes SLOW within the slow-down volume of the
limit, and nothing else changes. In STOPPING the standard increment is overrun too and the 3 s of the drain start
afresh. A pulse that carries the total to or past a multiple of 10,000,000 µL (10.00 L) asks for a checkpoint. A pulse
in AUTHORISED before the hose has joined the pump is metered, booked and recorded in the same way, numbering the
record if it has no number, and the hose stays as it is. The first pulse of a joined hose in AUTHORISED does so too
and makes the hose FLOWING: the no-flow timer stops, the idle timer and the probe schedule start, a PROBE begins at an
idle TIU, and the session is NONE. A pulse of a prove in its run is metered on its gross total: the book and the
journal stand, the idle timer of a joined hose starts afresh, and the stage compare is on the gross total; in the
drain the 3 s start afresh. Where it speaks of the book beyond 48 bits (log 7), of the counter at its largest value
(log 23), of the stage compare on the first pulse (log 46) and of the overrun in a prove's drain (log 73), that is
the model's choice. -/
def Obligations.ForwardPulseIsMetered : Prop :=
  (∀ (s : State) (h : Hose) (levelB : Bool) (d : MuDispense) (hour : Nat) (hours : List Nat) (g st : Nat)
    (e : MuDispense) (mu : Two Mu) (su : Su) (slow : Prop) [Decidable slow], s.power = .released →
    judgeEdge (s.mu.get h) levelB = .forward → (s.mu.get h).dispense = some d → d.isProve = false →
    s.su.hours = hour :: hours →
    d.meter (s.cfg.params.hose.get h).pulseWeight (s.cfg.params.hose.get h).alpha = (g, st, e) →
    mu = s.mu.set h { s.mu.get h with
      rises := 0, falls := 0, edgeSeen := true, windowCount := satInc max16 (s.mu.get h).windowCount,
      dispense := some e } →
    su = { s.su with
      lastMove := s.now, book := bookAdd s.su.book (-(st : Int)), hours := (hour + st) :: hours,
      again := s.su.again || decide (s.sc.current.map Prod.fst = some .su) } →
    (slow ↔ (s.hc.get h).stage = .full ∧ (s.hc.get h).limit.getD 0 * 10000
      ≤ e.std + (s.cfg.params.hose.get h).slowDown * 10000) →
    (∀ n, (s.hc.get h).state = .flowing → s.ju.slots.get h = some (.numbered n) →
      e.std < (s.hc.get h).limit.getD 0 * 10000 →
      let u := { s with
        mu := mu, su := su, ju := s.ju.upd n (fun r => r.updDispense (fun x => x.add g st)),
        hc := s.hc.set h { s.hc.get h with
          idleAt := some (s.now + sec 60), stage := if slow then .slow else (s.hc.get h).stage } }
      exec (.pulse h levelB) s = .next (if d.std / 10000000 < e.std / 10000000 then scAsk (.hc h) u else u)) ∧
    (∀ n, (s.hc.get h).state = .stopping → s.ju.slots.get h = some (.numbered n) →
      let u := { s with
        mu := mu, su := su, ju := s.ju.upd n (fun r => r.updDispense (fun x => x.add g st)),
        hc := s.hc.set h { s.hc.get h with
          overrun := satAdd48 (s.hc.get h).overrun st, drainAt := some (s.now + sec 3) } }
      exec (.pulse h levelB) s = .next (if d.std / 10000000 < e.std / 10000000 then scAsk (.hc h) u else u)) ∧
    (∀ r, (s.hc.get h).state = .authorised → (s.hc.get h).joined = true → s.ju.slots.get h = some (.reserved r) →
      s.ju.counter ≠ max32 → e.std < (s.hc.get h).limit.getD 0 * 10000 → (s.tiu.get h).busy = .idle →
      s.warned = false →
      ∃ t : State, exec (.pulse h levelB) s = .next t ∧ t.mu = mu ∧ t.su = { su with again := t.su.again } ∧
        (s.sc.current.isSome = true ∨ s.sc.queue.contains .su = false → t.su = su) ∧
        t.hc = s.hc.set h { s.hc.get h with
          state := .flowing, noFlowAt := none, idleAt := some (s.now + sec 60), probeAt := some (s.now + sec 1),
          stage := if slow then .slow else (s.hc.get h).stage } ∧
        t.au.session.get h = Session.empty (s.au.session.get h).serial ∧
        (t.tiu.get h).busy = .probing ∧ (t.tiu.get h).requester = some .hc ∧
        t.ju.counter = s.ju.counter + 1 ∧ t.ju.slots.get h = some (.numbered (s.ju.counter + 1)) ∧
        t.ju.recs = s.ju.recs ++ [JRec.mk (s.ju.counter + 1) s.lc.clock s.lc.sure (.dispense (r.add g st))
          .opened 0 none]) ∧
    (∀ r, (s.hc.get h).state = .authorised → (s.hc.get h).joined = false → s.ju.slots.get h = some (.reserved r) →
      s.ju.counter ≠ max32 → e.std < (s.hc.get h).limit.getD 0 * 10000 →
      ∃ t : State, exec (.pulse h levelB) s = .next t ∧ t.mu = mu ∧ t.su = { su with again := t.su.again } ∧
        (s.sc.current.isSome = true ∨ s.sc.queue.contains .su = false → t.su = su) ∧
        t.hc = s.hc ∧ t.au = s.au ∧ t.tiu = s.tiu ∧
        t.ju.counter = s.ju.counter + 1 ∧ t.ju.slots.get h = some (.numbered (s.ju.counter + 1)) ∧
        t.ju.recs = s.ju.recs ++ [JRec.mk (s.ju.counter + 1) s.lc.clock s.lc.sure (.dispense (r.add g st))
          .opened 0 none]) ∧
    (∀ n, (s.hc.get h).state = .authorised → s.ju.slots.get h = some (.numbered n) →
      e.std < (s.hc.get h).limit.getD 0 * 10000 →
      ((s.hc.get h).joined = false → exec (.pulse h levelB) s = .next { s with
        mu := mu, su := su, ju := s.ju.upd n (fun r => r.updDispense (fun x => x.add g st)) }) ∧
      ((s.hc.get h).joined = true → (s.tiu.get h).busy = .idle → s.warned = false →
        ∃ t : State, exec (.pulse h levelB) s = .next t ∧ t.mu = mu ∧ t.su = su ∧
          t.hc = s.hc.set h { s.hc.get h with
            state := .flowing, noFlowAt := none, idleAt := some (s.now + sec 60), probeAt := some (s.now + sec 1),
            stage := if slow then .slow else (s.hc.get h).stage } ∧
          t.au.session.get h = Session.empty (s.au.session.get h).serial ∧ (t.tiu.get h).busy = .probing ∧
          t.ju.counter = s.ju.counter ∧ t.ju.slots = s.ju.slots ∧
          t.ju.recs = (s.ju.upd n (fun r => r.updDispense (fun x => x.add g st))).recs))) ∧
  (∀ (s : State) (h : Hose) (levelB : Bool) (d : MuDispense) (g st : Nat) (e : MuDispense) (slow : Prop)
    [Decidable slow], s.power = .released →
    judgeEdge (s.mu.get h) levelB = .forward → (s.mu.get h).dispense = some d → d.isProve = true →
    (s.hc.get h).state = .proving → s.prove.phase = .run →
    d.meter (s.cfg.params.hose.get h).pulseWeight (s.cfg.params.hose.get h).alpha = (g, st, e) →
    (slow ↔ (s.hc.get h).stage = .full ∧ (s.hc.get h).limit.getD 0 * 10000
      ≤ e.gross + (s.cfg.params.hose.get h).slowDown * 10000) →
    let u := { s with
      mu := s.mu.set h { s.mu.get h with
        rises := 0, falls := 0, edgeSeen := true, windowCount := satInc max16 (s.mu.get h).windowCount,
        dispense := some e },
      su := { s.su with lastMove := s.now } }
    ((s.hc.get h).endCause = none → e.gross < (s.hc.get h).limit.getD 0 * 10000 →
      exec (.pulse h levelB) s = .next { u with hc := s.hc.set h { s.hc.get h with
        idleAt := if (s.hc.get h).joined then some (s.now + sec 60) else none,
        stage := if slow then .slow else (s.hc.get h).stage } }) ∧
    ((s.hc.get h).endCause.isSome = true → exec (.pulse h levelB) s = .next { u with
      hc := s.hc.set h { s.hc.get h with drainAt := some (s.now + sec 3) } }))

/-- The pulse that carries the standard total to the limit ends the dispense: the stage closes, neither valve output
is active, the hose is in STOPPING with LIMIT, and the line drains. The pulse that carries the gross total of a prove
to the vessel size ends its flow in the same way, and the hose stays in PROVING. SLOW drives the slow-stage output
alone, FULL both. Where it speaks of the book beyond 48 bits (log 7), that is the model's choice. -/
def Obligations.LimitEndsTheDispense : Prop :=
  (∀ (s : State) (h : Hose) (levelB : Bool) (d : MuDispense) (g st : Nat) (e : MuDispense),
    s.power = .released → judgeEdge (s.mu.get h) levelB = .forward → (s.mu.get h).dispense = some d →
    d.isProve = false → (s.hc.get h).state = .flowing →
    d.meter (s.cfg.params.hose.get h).pulseWeight (s.cfg.params.hose.get h).alpha = (g, st, e) →
    (s.hc.get h).limit.getD 0 * 10000 ≤ e.std →
    ∃ t : State, exec (.pulse h levelB) s = .next t ∧
      (t.hc.get h).state = .stopping ∧ (t.hc.get h).stage = .closed ∧ (t.hc.get h).endCause = some .limit ∧
      valveOutputs t h = { slow := false, full := false } ∧
      (t.hc.get h).drainAt = some (s.now + sec 3) ∧ (t.hc.get h).drainLimitAt = some (s.now + sec 30) ∧
      t.hc.get h.other = s.hc.get h.other ∧ t.su.book = bookAdd s.su.book (-(st : Int))) ∧
  (∀ (s : State) (h : Hose) (levelB : Bool) (d : MuDispense) (g st : Nat) (e : MuDispense),
    s.power = .released → judgeEdge (s.mu.get h) levelB = .forward → (s.mu.get h).dispense = some d →
    d.isProve = true → (s.hc.get h).state = .proving → s.prove.phase = .run → (s.hc.get h).endCause = none →
    d.meter (s.cfg.params.hose.get h).pulseWeight (s.cfg.params.hose.get h).alpha = (g, st, e) →
    (s.hc.get h).limit.getD 0 * 10000 ≤ e.gross →
    ∃ t : State, exec (.pulse h levelB) s = .next t ∧
      (t.hc.get h).state = .proving ∧ (t.hc.get h).stage = .closed ∧ (t.hc.get h).endCause = some .limit ∧
      (t.hc.get h).drainAt = some (s.now + sec 3) ∧ (t.hc.get h).drainLimitAt = some (s.now + sec 30) ∧
      t.hc.get h.other = s.hc.get h.other ∧ t.su.book = s.su.book ∧ t.ju = s.ju) ∧
  (∀ (s : State) (h : Hose),
    ((s.hc.get h).stage = .slow → valveOutputs s h = { slow := true, full := false }) ∧
    ((s.hc.get h).stage = .full → valveOutputs s h = { slow := true, full := true }))

/-- With the meter closed a forward pulse is a stray; a reverse pulse, a mismatch and a channel B edge only count,
a reverse pulse and a mismatch in the open dispense too. The 21st mismatch of a dispense, reported once, ends its
flow with METER_FAULT. -/
def Obligations.EdgesThatMeterNothing : Prop :=
  ∀ (s : State) (h : Hose) (levelB rising : Bool), s.power = .released →
    (judgeEdge (s.mu.get h) levelB = .forward → (s.mu.get h).dispense = none →
      exec (.pulse h levelB) s = .next { s with
        mu := s.mu.set h { s.mu.get h with
          rises := 0, falls := 0, edgeSeen := true, windowCount := satInc max16 (s.mu.get h).windowCount,
          stray := satInc max16 (s.mu.get h).stray },
        su := { s.su with lastMove := s.now } }) ∧
    (judgeEdge (s.mu.get h) levelB = .reverse → exec (.pulse h levelB) s = .next { s with
        mu := s.mu.set h { s.mu.get h with
          rises := 0, falls := 0, edgeSeen := true, reverse := satInc max16 (s.mu.get h).reverse,
          dispense := (s.mu.get h).dispense.map (fun d => { d with reverses := satInc max16 d.reverses }) } }) ∧
    (judgeEdge (s.mu.get h) levelB = .mismatch → (s.mu.get h).dispense = none →
      exec (.pulse h levelB) s = .next { s with
        mu := s.mu.set h { s.mu.get h with
          rises := 0, falls := 0, edgeSeen := true, mismatch := satInc max16 (s.mu.get h).mismatch } }) ∧
    (∀ d, judgeEdge (s.mu.get h) levelB = .mismatch → (s.mu.get h).dispense = some d →
      let u := { s with
        mu := s.mu.set h { s.mu.get h with
          rises := 0, falls := 0, edgeSeen := true, mismatch := satInc max16 (s.mu.get h).mismatch,
          dispense := some { d with
            mismatches := satInc 255 d.mismatches,
            faultReported := d.faultReported || decide (20 ≤ d.mismatches) } } }
      (d.mismatches < 20 ∨ d.faultReported = true → exec (.pulse h levelB) s = .next u) ∧
      (20 ≤ d.mismatches → d.faultReported = false → (s.hc.get h).state = .flowing →
        exec (.pulse h levelB) s = .next (endFlow h .meterFault u))) ∧
    exec (.channelBEdge h rising) s = .next { s with
      mu := s.mu.set h { s.mu.get h with
        rises := if rising then satInc 2 (s.mu.get h).rises else (s.mu.get h).rises,
        falls := if rising then (s.mu.get h).falls else satInc 2 (s.mu.get h).falls } }

/-- A window ends: its rate is floor(n × W_p × 6 / (10 × window_ms)), the count returns to 0 and the next window
begins. A good sample, within −40.0 to +70.0 °C, becomes the last good temperature and the temperature in use; a bad
one leaves both and sets the temperature-held flag of an open dispense. With a dispense open its band is the first
whose limit is at least the rate. A rate above them all is an overspeed window in band 4; the third in a row reports
FORCED_SLOW, once in a dispense, and the hose then holds the slow stage. Where it speaks of the due time a
time-driven command stands for (log 2), that is the model's choice. -/
def Obligations.FlowWindowEnds : Prop :=
  ∀ (s : State) (h : Hose) (sample : TempSample) (good : Option Int) (rate : Nat), s.power = .released →
    (∃ t, sample = .reading t ∧ -400 ≤ t ∧ t ≤ 700 ∧ good = some t) ∨
      (sample = .fault ∨ ∃ t, sample = .reading t ∧ (t < -400 ∨ 700 < t)) ∧ good = none →
    rate = (s.mu.get h).windowCount * (s.cfg.params.hose.get h).pulseWeight * 6
      / (10 * ((s.cfg.params.hose.get h).windowN * 100)) →
    let u := fun (d : Option MuDispense) => { s with
      now := max s.now (s.mu.get h).windowEnd,
      mu := s.mu.set h { s.mu.get h with
        windowCount := 0,
        windowEnd := (s.mu.get h).windowEnd + ms ((s.cfg.params.hose.get h).windowN * 100),
        lastRate := rate, lastTemp := if good.isSome then good else (s.mu.get h).lastTemp,
        sampleBad := good.isNone, dispense := d } }
    ((s.mu.get h).dispense = none → exec (.flowWindowEnd h sample) s = .next (u none)) ∧
    (∀ d, (s.mu.get h).dispense = some d →
      (∀ band, bandFor (s.mu.get h).limits rate = some band →
        exec (.flowWindowEnd h sample) s = .next (u (some { d with
          band := band, consecutive := 0, theta := good.getD d.theta, held := d.held || good.isNone }))) ∧
      (bandFor (s.mu.get h).limits rate = none →
        let fast := { d with
          band := 4, overspeed := satInc max16 d.overspeed, consecutive := satInc 3 d.consecutive,
          theta := good.getD d.theta, held := d.held || good.isNone }
        (d.consecutive < 2 ∨ d.forcedSlow = true →
          exec (.flowWindowEnd h sample) s = .next (u (some fast))) ∧
        (d.consecutive = 2 → d.forcedSlow = false →
          exec (.flowWindowEnd h sample) s = .next { u (some { fast with forcedSlow := true }) with
            hc := s.hc.set h { s.hc.get h with
              forcedSlow := true,
              stage := if (s.hc.get h).stage = .full then .slow else (s.hc.get h).stage } })))

end

section

open Sys2Proof Sys2Proof.Machine

/-! ### Nozzles and sessions -/

/-- A lift on an idle hose before the warning selects the hose and starts a session: the hose is in IDENTIFYING, a
READ begins at an idle TIU, and the next whole second is due. -/
def Obligations.LiftStartsASession : Prop :=
  ∀ (s : State) (h : Hose), s.power = .released → s.warned = false → (s.hc.get h).nozzleOut = false →
    (s.hc.get h).state = .idle → (s.tiu.get h).busy = .idle →
    exec (.nozzleLift h) s = .next { s with
      pp := { s.pp with selected := h },
      hc := s.hc.set h { s.hc.get h with nozzleOut := true, state := .identifying },
      au := { s.au with session := s.au.session.set h { Session.empty ((s.au.session.get h).serial + 1) with
        startAt := some s.now, nextRead := some (s.now + sec 1) } },
      tiu := s.tiu.set h { s.tiu.get h with
        busy := .read0, requester := some (.au ((s.au.session.get h).serial + 1)), code := none,
        number := nextCommand (s.tiu.get h).number,
        waiting := some (HeadCommand.mk (nextCommand (s.tiu.get h).number) (.readFragment 0) true false s.now) } }

/-- At each whole second of IDENTIFYING the session asks an idle TIU for a READ; at each whole second of FLOWING
the hose asks for a PROBE. Where it speaks of the due time a time-driven command stands for (log 2), that is the
model's choice. -/
def Obligations.WholeSecondsAskTheTag : Prop :=
  ∀ (s : State) (h : Hose) (d : Nat), s.power = .released → s.warned = false → (s.tiu.get h).busy = .idle →
    ((s.hc.get h).state = .identifying → (s.au.session.get h).nextRead = some d →
      exec (.readRequestSecond h) s = .next { s with
        now := max s.now d,
        au := { s.au with session := s.au.session.set h { s.au.session.get h with
          nextRead := some (d + sec 1) } },
        tiu := s.tiu.set h { s.tiu.get h with
          busy := .read0, requester := some (.au (s.au.session.get h).serial), code := none,
          number := nextCommand (s.tiu.get h).number,
          waiting := some (HeadCommand.mk (nextCommand (s.tiu.get h).number) (.readFragment 0) true false
            (max s.now d)) } }) ∧
    ((s.hc.get h).state = .flowing → (s.hc.get h).probeAt = some d →
      exec (.probeSecond h) s = .next { s with
        now := max s.now d,
        hc := s.hc.set h { s.hc.get h with probeAt := some (d + sec 1) },
        tiu := s.tiu.set h { s.tiu.get h with
          busy := .probing, requester := some .hc, code := none,
          number := nextCommand (s.tiu.get h).number,
          waiting := some (HeadCommand.mk (nextCommand (s.tiu.get h).number) .testPresence true true
            (max s.now d)) } })

/-- 60 s from the start with no tag read, and 30 s of AWAIT_KEY with no key, refuse the session: the hose waits for
its nozzle to be hung, the session is NONE, the machine it held is released, its pending operator and preset are
gone, and with 64 slots free and no STORE_FAULT a REFUSAL record takes the next number. A query wait whose send limit
of 10 s or answer time runs out ends: on a joined link the machine's entry becomes fresh at the clock, and the session
in QUERYING goes to grant, not blind; otherwise it goes to grant blind. Where it speaks of the due time a time-driven
command stands for (log 2), that is the model's choice. -/
def Obligations.SessionAndQueryTimeLimits : Prop :=
  (∀ (s : State) (h : Hose) (i : Instr) (reason : RefusalReason) (start due : Nat),
    s.power = .released → s.warned = false →
    (i = .tagReadTimeLimit h ∧ reason = .tagUnreadable ∧ (s.hc.get h).state = .identifying ∧
        (s.au.session.get h).startAt = some start ∧ due = start + sec 60 ∨
      i = .keyWaitTimeLimit h ∧ reason = .keyRequired ∧ (s.hc.get h).state = .awaitKey ∧
        (s.au.session.get h).keyWaitFrom = some start ∧ due = start + sec 30) →
    ∃ t : State, exec i s = .next t ∧ t.now = max s.now due ∧ (t.hc.get h).state = .hangWait ∧
      ((s.hc.get h).nozzleOut = true → (t.hc.get h).shown = .refused reason) ∧
      t.hc.get h.other = s.hc.get h.other ∧
      t.au.session.get h = Session.empty (s.au.session.get h).serial ∧ t.au.preset.get h = none ∧
      t.pp.pendingOp.get h = none ∧
      (∀ f, (s.au.session.get h).ident = some .held → (s.au.session.get h).fixed = some f →
        t.mt = (release h f.machine s).mt) ∧
      (64 ≤ s.ju.free → s.sc.fault = false → t.ju.recs = s.ju.recs ++ [JRec.mk (s.ju.counter + 1) s.lc.clock
        s.lc.sure (.refusal h reason (refusalMachine (s.au.session.get h)) (s.pp.pendingOp.get h)) .opened 0 none]) ∧
      (s.ju.free < 64 ∨ s.sc.fault = true → t.ju = s.ju) ∧ t.lc = s.lc ∧ t.su = s.su) ∧
  (∀ (s : State) (h : Hose) (i : Instr) (m id since due : Nat), s.power = .released →
    (s.hc.get h).state = .querying →
    (i = .querySendLimit h ∧ s.mt.wait.get h = .sending m id since ∧ due = since + sec 10 ∨
      i = .queryAnswerTime h ∧ s.mt.wait.get h = .waiting m id since ∧
        due = since + sec s.cfg.params.queryWait) →
    (s.lc.link = .joined → exec i s = .next (grantBlind h false { s with
      now := max s.now due,
      mt := { s.mt.upd m (fun e => { e with fresh := some s.lc.clock }) with wait := s.mt.wait.set h .none } })) ∧
    (s.lc.link ≠ .joined → exec i s = .next (grantBlind h true { s with
      now := max s.now due, mt := { s.mt with wait := s.mt.wait.set h .none } })))

/-- DONE to the read of fragment 2 of a good tag ends the READ, and the session takes its tag. A fixed part out of its
ranges is refused TAG_INVALID. Otherwise the table takes the identification, and checks 1 to 4 refuse in their order;
with a key required and no pending operator the hose waits in AWAIT_KEY from this moment; otherwise checks 6 and 7
refuse in theirs. The session then goes to grant, not blind when the link is JOINED and the entry fresh, blind when
the link is not JOINED; when it is JOINED and the entry not fresh, a QUERY with the window of the entry's fixed part
is asked for, its wait is SENDING from this moment and the hose QUERYING. -/
def Obligations.SessionsGoFromTheTagToTheGrant : Prop :=
  (∀ (s : State) (h : Hose) (ok : Bool) (num : Byte) (fixed : FixedPart) (f1 f2 : List Byte) (r : TagRecord),
    s.power = .released → answerAccepted (s.tiu.get h) ok num.toNat s.now = true →
    (s.tiu.get h).busy = .read2 fixed f1 → (s.tiu.get h).requester = some (.au (s.au.session.get h).serial) →
    (s.hc.get h).state = .identifying → r = { fixed := fixed, history := historyOf f1 f2 } →
    (r.history.valid = true → r.history.machine = fixed.machine ∧ r.history.idCheck = fixed.machine % 256) →
    exec (.headAnswer h ok num (.done f2)) s = .next (takeTag h r { s with
      tiu := s.tiu.set h { s.tiu.get h with
        busy := .idle, requester := none, waiting := none, code := some .readDone, record := some r,
        present := true, misses := 0 } })) ∧
  (∀ (s : State) (h : Hose) (r : TagRecord) (u v : State),
    u = s.updSession h (fun se => { se with fixed := some r.fixed, nextRead := none }) →
    v = (identify h r.fixed r.history u).updSession h (fun se => { se with
      ident := some (identAnswer h r.fixed.machine (identify h r.fixed r.history u)),
      fresh := freshAnswer r.fixed.machine (identify h r.fixed r.history u) }) →
    (fixedPartOk r.fixed = false → takeTag h r s = refuse h .tagInvalid u) ∧
    (fixedPartOk r.fixed = true →
      (s.cfg.configured = false → takeTag h r s = refuse h .notConfigured v) ∧
      (s.cfg.configured = true → s.sc.fault = true → takeTag h r s = refuse h .storeFault v) ∧
      (s.cfg.configured = true → s.sc.fault = false →
        (r.fixed.product ≠ s.cfg.params.product → takeTag h r s = refuse h .wrongProduct v) ∧
        (r.fixed.product = s.cfg.params.product →
          ((v.au.session.get h).ident = some .otherHose → takeTag h r s = refuse h .machineBusy v) ∧
          ((v.au.session.get h).ident = some .held →
            (r.fixed.keyRequired = true → s.pp.pendingOp.get h = none →
              takeTag h r s = (v.updSession h (fun se => { se with keyWaitFrom := some s.now })).updHc h
                (fun hc => { hc with state := .awaitKey })) ∧
            (r.fixed.keyRequired = false ∨ (s.pp.pendingOp.get h).isSome = true →
              takeTag h r s = afterKey h v)))))) ∧
  (∀ (s : State) (h : Hose) (f : FixedPart), (s.au.session.get h).fixed = some f →
    (s.ju.free < 3 → afterKey h s = refuse h .journalFull s) ∧
    (3 ≤ s.ju.free → isBC f.cls = true → s.ju.free < 64 ∨ s.su.loss = true →
      afterKey h s = refuse h .classRestricted s) ∧
    (3 ≤ s.ju.free → isBC f.cls = false ∨ 64 ≤ s.ju.free ∧ s.su.loss = false →
      (s.lc.link ≠ .joined → afterKey h s = grantBlind h true s) ∧
      (s.lc.link = .joined → (s.au.session.get h).fresh = true → afterKey h s = grantBlind h false s) ∧
      (∀ e g, s.lc.link = .joined → (s.au.session.get h).fresh = false → s.warned = false →
        s.mt.wait.get h = .none → s.lc.queue.length < 16 → s.mt.find f.machine = some e → e.fixed = some g →
        afterKey h s = (setWait h (.sending f.machine s.mt.serial s.now)
          (placeFrame { cls := 2, owner := .query h s.mt.serial,
                        bytes := frameBytes (wholeHeader (stationId s))
                          (.query (BitVec.ofNat 24 f.machine) (BitVec.ofNat 8 g.window)) }
            { s with mt := { s.mt with serial := s.mt.serial + 1 } })).updHc h
          (fun hc => { hc with state := .querying }))))

/-- The granted limit is the smallest of the terms present, and the binding term is the first that has it in the
order preset, maximum, capacity, allowance, stock, blind. At grant STORE_FAULT and checks 6 and 7 refuse again, and a
limit below 200 cL refuses by its binding term. Otherwise the session keeps its terms, the pending operator and
preset are taken, a DISPENSE record is reserved with the price of the cost centre, the meter opens, and the hose is
AUTHORISED with limit, binding term and machine; it joins a running pump at once, its no-flow timer running, or starts
a stopped one whose budget allows it. -/
def Obligations.LimitIsTheSmallestTerm : Prop :=
  (∀ (preset : Option Nat) (t : Terms),
    (chooseLimit preset t) ∈ termList preset t ∧
    (∀ x ∈ termList preset t, (chooseLimit preset t).2 ≤ x.2) ∧
    (∃ front back, termList preset t = front ++ chooseLimit preset t :: back ∧
      ∀ x ∈ front, (chooseLimit preset t).2 < x.2)) ∧
  (∀ (s u : State) (h : Hose) (f : FixedPart) (t : Terms) (best : Binding × Nat),
    (s.au.session.get h).fixed = some f →
    u = { s with mt := s.mt.upd f.machine (fun e => e.aged s.lc.clock) } →
    t = { maximum := s.cfg.params.maxDispense * 100, capacity := f.capacity * 100,
          allowance := (remainingAllowance f.machine u).remaining, stock := stockTerm s f.cls,
          blind := if (s.au.session.get h).blind then some (s.cfg.params.blindCap * 100) else none } →
    best = chooseLimit (s.au.preset.get h) t →
    (s.sc.fault = true → toGrant h s = refuse h .storeFault s) ∧
    (s.sc.fault = false → s.ju.free < 3 → toGrant h s = refuse h .journalFull s) ∧
    (s.sc.fault = false → 3 ≤ s.ju.free → isBC f.cls = true → s.ju.free < 64 ∨ s.su.loss = true →
      toGrant h s = refuse h .classRestricted s) ∧
    (s.sc.fault = false → 3 ≤ s.ju.free → isBC f.cls = false ∨ 64 ≤ s.ju.free ∧ s.su.loss = false →
      (best.2 < 200 → toGrant h s = refuse h
        (if best.1 = .allowance then .noAllowance else if best.1 = .stock then .noStock else .classRestricted) u) ∧
      (200 ≤ best.2 → toGrant h s = grantSession h f t best u))) ∧
  (∀ (s t : State) (h : Hose) (f : FixedPart) (terms : Terms) (best : Binding × Nat),
    t = grantSession h f terms best s → s.ju.slots.get h = none → 0 < s.ju.free → (s.mu.get h).dispense = none →
    (t.hc.get h).state = .authorised ∧ (t.hc.get h).limit = some best.2 ∧ (t.hc.get h).binding = some best.1 ∧
    (t.hc.get h).machine = some f.machine ∧ (t.hc.get h).allowanceShown = some terms.allowance ∧
    t.pp.pendingOp.get h = none ∧ t.au.preset.get h = none ∧
    (t.au.session.get h).terms = some terms ∧ (t.au.session.get h).presetTerm = s.au.preset.get h ∧
    (t.mu.get h).dispense = some ((s.mu.get h).opening false) ∧
    (∃ price book unpriced, priceLookup s.pbu.banks f.costCentre = (price, book, unpriced) ∧
      t.ju.slots.get h = some (.reserved
        { hose := h, machine := f.machine, cls := f.cls, costCentre := f.costCentre,
          operator := s.pp.pendingOp.get h, limit := best.2, binding := best.1,
          blind := (s.au.session.get h).blind, book := book, price := price, unpriced := unpriced, accGross := 0,
          accStd := 0, accOverrun := 0, stopNotice := false, adjustment := 0, close := none })) ∧
    (s.warned = false → s.pump.state = .running → s.pump.waiting = Two.both false →
      (t.hc.get h).joined = true ∧ (t.hc.get h).stage ≠ .closed ∧
      (t.hc.get h).noFlowAt = some (s.now + sec 60)) ∧
    (s.warned = false → s.pump.state = .stopped → s.pump.level < 6 → s.pump.waiting = Two.both false →
      (t.hc.get h).joined = true ∧ (t.hc.get h).stage ≠ .closed ∧
      (t.hc.get h).noFlowAt = some (s.now + sec 60) ∧ t.pump.state = .running ∧
      t.pump.level = s.pump.level + 1) ∧
    (s.warned = false → s.pump.state = .stopped → s.pump.level = 6 →
      (t.hc.get h).joined = false ∧ t.pump.waiting.get h = true))

/-! ### A dispense's ends -/

/-- STOP on the selected hose, a hang, and 60 s with no pulse end a dispense in FLOWING with their own cause: the
stage closes, the timers of flow stop, the line drains for 3 s and at most 30 s, the open record hears the stop, and
nothing else changes. Each PROBE with no tag in FLOWING counts a miss and shows "tag not seen", and the third in a row
ends the flow with TAG_LOST. The same three end the flow of a prove in its run, held pump or not. A hang elsewhere: in
HANG_WAIT it makes the hose IDLE; in IDENTIFYING, AWAIT_KEY and QUERYING it ends the session with no record, its query
wait cancelled, its machine released, the hose IDLE and the pending operator and preset kept; in STOPPING and WRITING
the hose is hung since its end; in a prove whose flow does not run it is a position only. A STOP elsewhere, but for
AUTHORISED, raises "nothing to stop" for 3 s. Where it speaks of the due time a time-driven command stands for (log
2), of what a hang clears from the display (log 29 for "factor not stored", log 38) and of "tag not seen" that stands
after the end (log 55), of the end cause of a prove that is not shown (log 47) and of hung since end in a prove
(log 73), that is the model's choice. -/
def Obligations.FlowEndsByStopHangAndIdleTime : Prop :=
  ∀ (s : State) (h : Hose) (num : Byte),
    let hung := { s.hc.get h with nozzleOut := false, shown := .nothing, proveShown := none, factorNotStored := false }
    (∀ n, s.ju.slots.get h = some (.numbered n) → (s.hc.get h).state = .flowing → (s.hc.get h).nozzleOut = true →
      (Takes s num → s.pp.selected = h →
        exec (.stop num) s = .next { taken num s with
          hc := s.hc.set h { s.hc.get h with
            state := .stopping, stage := .closed, endCause := some .operatorStop, hungSinceEnd := false,
            noFlowAt := none, idleAt := none, probeAt := none, shown := .ended .operatorStop,
            drainAt := some (s.now + sec 3), drainLimitAt := some (s.now + sec 30) },
          ju := s.ju.upd n (fun r => r.updDispense (fun d => { d with stopNotice := true })) }) ∧
      (s.power = .released → exec (.nozzleHang h) s = .next { s with
          hc := s.hc.set h { s.hc.get h with
            state := .stopping, stage := .closed, endCause := some .nozzleHung, hungSinceEnd := true,
            nozzleOut := false, noFlowAt := none, idleAt := none, probeAt := none, shown := .nothing,
            proveShown := none, factorNotStored := false, drainAt := some (s.now + sec 3),
            drainLimitAt := some (s.now + sec 30) },
          ju := s.ju.upd n (fun r => r.updDispense (fun d => { d with stopNotice := true })) }) ∧
      (∀ d, s.power = .released → (s.hc.get h).idleAt = some d →
        exec (.idleTimer h) s = .next { s with
          now := max s.now d,
          hc := s.hc.set h { s.hc.get h with
            state := .stopping, stage := .closed, endCause := some .idleTimeout, hungSinceEnd := false,
            noFlowAt := none, idleAt := none, probeAt := none, shown := .ended .idleTimeout,
            drainAt := some (max s.now d + sec 3), drainLimitAt := some (max s.now d + sec 30) },
          ju := s.ju.upd n (fun r => r.updDispense (fun d => { d with stopNotice := true })) }) ∧
      (∀ ok, s.power = .released → answerAccepted (s.tiu.get h) ok num.toNat s.now = true →
        (s.tiu.get h).busy = .probing → (s.tiu.get h).requester = some .hc →
        let tiu := s.tiu.set h { s.tiu.get h with
          busy := .idle, requester := none, waiting := none, code := some (.tagError .noTag), present := false,
          misses := satInc 255 (s.tiu.get h).misses }
        ((s.tiu.get h).misses < 2 → exec (.headAnswer h ok num .absent) s = .next { s with
          tiu := tiu, hc := s.hc.set h { s.hc.get h with tagNotSeen := true } }) ∧
        ((s.tiu.get h).misses = 2 → exec (.headAnswer h ok num .absent) s = .next { s with
          tiu := tiu,
          hc := s.hc.set h { s.hc.get h with
            state := .stopping, stage := .closed, endCause := some .tagLost, hungSinceEnd := false,
            tagNotSeen := true, noFlowAt := none, idleAt := none, probeAt := none, shown := .ended .tagLost,
            drainAt := some (s.now + sec 3), drainLimitAt := some (s.now + sec 30) },
          ju := s.ju.upd n (fun r => r.updDispense (fun d => { d with stopNotice := true })) }))) ∧
    ((s.hc.get h).state = .proving → s.prove.phase = .run → (s.hc.get h).endCause = none →
      let pump := { s.pump with waiting := s.pump.waiting.set h false }
      (Takes s num → s.pp.selected = h → exec (.stop num) s = .next { taken num s with
        pump := pump,
        hc := s.hc.set h { s.hc.get h with
          stage := .closed, endCause := some .operatorStop, idleAt := none, drainAt := some (s.now + sec 3),
          drainLimitAt := some (s.now + sec 30) } }) ∧
      (s.power = .released → (s.hc.get h).nozzleOut = true → exec (.nozzleHang h) s = .next { s with
        pump := pump,
        hc := s.hc.set h { hung with
          stage := .closed, endCause := some .nozzleHung, idleAt := none, drainAt := some (s.now + sec 3),
          drainLimitAt := some (s.now + sec 30) } }) ∧
      (∀ d, s.power = .released → (s.hc.get h).idleAt = some d → exec (.idleTimer h) s = .next { s with
        now := max s.now d, pump := pump,
        hc := s.hc.set h { s.hc.get h with
          stage := .closed, endCause := some .idleTimeout, idleAt := none,
          drainAt := some (max s.now d + sec 3), drainLimitAt := some (max s.now d + sec 30) } })) ∧
    (s.power = .released → (s.hc.get h).nozzleOut = true →
      ((s.hc.get h).state = .hangWait →
        exec (.nozzleHang h) s = .next { s with hc := s.hc.set h { hung with state := .idle } }) ∧
      ((s.hc.get h).state = .stopping ∨ (s.hc.get h).state = .writing →
        exec (.nozzleHang h) s = .next { s with hc := s.hc.set h { hung with hungSinceEnd := true } }) ∧
      ((s.hc.get h).state = .proving → s.prove.phase ≠ .run ∨ (s.hc.get h).endCause.isSome = true →
        exec (.nozzleHang h) s = .next { s with hc := s.hc.set h hung }) ∧
      ((s.hc.get h).state = .identifying ∨ (s.hc.get h).state = .awaitKey ∨ (s.hc.get h).state = .querying →
        let mt := { s.mt with wait := s.mt.wait.set h .none }
        let u := { s with
          hc := s.hc.set h { hung with state := .idle },
          au := { s.au with session := s.au.session.set h (Session.empty (s.au.session.get h).serial) } }
        ((s.au.session.get h).ident ≠ some .held → exec (.nozzleHang h) s = .next { u with mt := mt }) ∧
        (∀ f, (s.au.session.get h).ident = some .held → (s.au.session.get h).fixed = some f →
          exec (.nozzleHang h) s = .next { u with
            mt := mt.upd f.machine (fun e => if e.busy = some h then { e with busy := none } else e) }))) ∧
    (Takes s num → s.pp.selected = h → (s.hc.get h).state ≠ .authorised → (s.hc.get h).state ≠ .flowing →
      (s.hc.get h).state ≠ .proving ∨ s.prove.phase ≠ .run ∨ (s.hc.get h).endCause.isSome = true →
      exec (.stop num) s = .next { taken num s with pp := { (taken num s).pp with
        prompt := some (.nothingToStop, s.now + sec 3) } })

/-- 60 s of pump joined with no first pulse, a hang and a STOP for the selected hose end an authorisation with their own
cause. With nothing metered the grant is given back: the reservation is withdrawn, the meter closed, the machine
released, the session NONE, and the hose finished, its end cause shown while the nozzle is out. With some fuel metered
before the flow it is billed: the close sequence follows at once, with no tag written and the hose in WRITING. Where it
speaks of the due time a time-driven command stands for (log 2), of how long the end cause is shown (log 38) and of the
book beyond 48 bits (log 7), that is the model's choice. -/
def Obligations.NoFlowGivesTheGrantBack : Prop :=
  ∀ (s : State) (h : Hose) (i : Instr) (c : EndCause) (now : Nat) (m : MuDispense), s.power = .released →
    (s.hc.get h).state = .authorised → (s.mu.get h).dispense = some m →
    (i = .noFlowTimer h ∧ c = .idleTimeout ∧ (∃ d, (s.hc.get h).noFlowAt = some d ∧ now = max s.now d) ∨
      i = .nozzleHang h ∧ c = .nozzleHung ∧ (s.hc.get h).nozzleOut = true ∧ now = s.now ∨
      (∃ num, i = .stop num ∧ Takes s num ∧ s.pp.selected = h ∧ c = .operatorStop ∧ now = s.now)) →
    let out := (s.hc.get h).nozzleOut && decide (c ≠ .nozzleHung)
    (∀ r, m.std = 0 → s.ju.slots.get h = some (.reserved r) → s.ju.waiting = [] →
      ∃ t : State, exec i s = .next t ∧ t.now = now ∧
        (t.hc.get h).state = restState out ∧ (t.hc.get h).stage = .closed ∧
        (out = true → (t.hc.get h).shown = .ended c) ∧
        (t.hc.get h).limit = none ∧ t.hc.get h.other = s.hc.get h.other ∧
        t.au.session.get h = Session.empty (s.au.session.get h).serial ∧ (t.mu.get h).dispense = none ∧
        t.ju.slots.get h = none ∧ t.ju.counter = s.ju.counter ∧ t.ju.recs = s.ju.recs ∧
        t.pump.waiting.get h = false ∧ t.lc = s.lc ∧
        (∀ e, t.mt.find ((s.hc.get h).machine.getD 0) = some e → e.busy ≠ some h)) ∧
    (∀ n, m.std ≠ 0 → m.isProve = false → s.ju.slots.get h = some (.numbered n) →
      ∃ t : State, exec i s = .next t ∧ t.now = now ∧
        (t.hc.get h).state = .writing ∧ (t.hc.get h).stage = .closed ∧ (t.hc.get h).endCause = some c ∧
        (t.hc.get h).tagOutcome = some .notAttempted ∧ (t.hc.get h).summary = some m.summary ∧
        (t.hc.get h).closeTime = some (s.lc.clock, s.lc.sure) ∧ t.hc.get h.other = s.hc.get h.other ∧
        t.au.session.get h = Session.empty (s.au.session.get h).serial ∧ (t.mu.get h).dispense = none ∧
        t.su.book = bookAdd s.su.book (-m.adjustment) ∧ t.tiu = s.tiu ∧ t.lc = s.lc ∧
        t.ju.slots.get h = some (.numbered n) ∧ t.ju.counter = s.ju.counter ∧
        t.ju.recs = s.ju.recs.map (fun r => if r.number = n then r.updDispense (fun x =>
          { x with
            adjustment := m.adjustment
            close := some {
              gross := m.summary.gross, std := m.summary.std, overrun := roundClNat (s.hc.get h).overrun,
              theta := m.theta, held := m.held, overspeed := m.overspeed, endCause := c,
              tagOutcome := .notAttempted, time := s.lc.clock, sure := s.lc.sure,
              amount := (m.summary.std * x.price + 500) / 1000, recovered := false } }) else r) ∧
        (.record n ∈ t.ju.writeList ∨ t.ju.writing.map Prod.fst = some (.record n)))

/-- 3 s with no pulse, and 30 s in any case, end the drain: the close time is the site clock's, the meter closes
with its summary, and with no tag to write the hose is in WRITING, its record is closed and its write asked for, and
the pump runs on for 5 s when no hose needs it. After 30 s the alarm "valve not closing" stands. With a tag to write
and its TIU idle, fragment 1 of the new history is written; DONE to it writes fragment 2, and the end of that closes
the record with the tag write DONE or FAILED. Where it speaks of the due time a time-driven command stands for
(log 2), of the book beyond 48 bits (log 7) and of the history written with no tag record of its machine (log 70),
that is the model's choice. -/
def Obligations.DrainEndsInTheClose : Prop :=
  ∀ (s : State) (h : Hose) (n : Nat), s.power = .released →
    (s.hc.get h).state = .stopping → s.ju.slots.get h = some (.numbered n) →
    let hc := s.hc.get h
    let machine := hc.machine.getD 0
    let command := nextCommand (s.tiu.get h).number
    let closed (adj : Option Int) (m : Summary) (o : TagOutcome) (clock : Nat) (sure : Bool) : List JRec :=
      s.ju.recs.map (fun r => if r.number = n then r.updDispense (fun x =>
        { x with
          adjustment := adj.getD x.adjustment
          close := some {
            gross := m.gross, std := m.std, overrun := roundClNat hc.overrun, theta := m.theta, held := m.held,
            overspeed := m.overspeed, endCause := hc.endCause.getD .limit, tagOutcome := o, time := clock,
            sure := sure, amount := (m.std * x.price + 500) / 1000, recovered := false } }) else r)
    (∀ (i : Instr) (d : Nat) (m : MuDispense),
      (i = .drainEnd h ∧ hc.drainAt = some d ∨ i = .drainTimeLimit h ∧ hc.drainLimitAt = some d) →
      (s.tiu.get h).busy ≠ .probing → (s.mu.get h).dispense = some m → m.isProve = false →
      ∃ t : State, exec i s = .next t ∧ t.now = max s.now d ∧
        (t.hc.get h).summary = some m.summary ∧ (t.hc.get h).closeTime = some (s.lc.clock, s.lc.sure) ∧
        (t.hc.get h).drainAt = none ∧ (t.hc.get h).drainLimitAt = none ∧
        (i = .drainTimeLimit h → (t.hc.get h).valveAlarm = true) ∧
        t.hc.get h.other = s.hc.get h.other ∧ (t.mu.get h).dispense = none ∧
        t.su.book = bookAdd s.su.book (-m.adjustment) ∧ t.ju.counter = s.ju.counter ∧ t.lc = s.lc ∧
        (hc.hungSinceEnd = true ∨ hc.endCause = some .nozzleHung ∨ hc.endCause = some .tagLost ∨
            (s.tiu.get h).present = false ∨ roundClNat m.std = 0 →
          (t.hc.get h).state = .writing ∧ (t.hc.get h).tagOutcome = some .notAttempted ∧
          t.ju.recs = closed (some m.adjustment) m.summary .notAttempted s.lc.clock s.lc.sure ∧
          (.record n ∈ t.ju.writeList ∨ t.ju.writing.map Prod.fst = some (.record n)) ∧
          t.tiu = s.tiu ∧
          t.pump = (if s.pump.state = .running ∧ hoseNeeds s h.other = false then
            { s.pump with state := .runOn, runOnAt := some (max s.now d + sec 5) } else s.pump)) ∧
        (hc.hungSinceEnd = false → hc.endCause ≠ some .nozzleHung → hc.endCause ≠ some .tagLost →
            (s.tiu.get h).present = true → 0 < roundClNat m.std → (s.tiu.get h).busy = .idle →
            s.warned = false →
          let hist := newHistory machine
            { bowser := stationId s, time := s.lc.clock, sure := s.lc.sure, volume := roundClNat m.std }
            (s.tiu.get h).record
          (t.hc.get h).state = .stopping ∧ (t.hc.get h).tagStep = .writing ∧ t.pump = s.pump ∧
          t.tiu = s.tiu.set h { s.tiu.get h with
            requester := some .hc, code := none, number := command, busy := .write1 machine hist,
            waiting := some { number := command, op := .writeFragment 1 machine (historyFragment1 hist),
                              beginMark := true, endMark := false, sentAt := max s.now d } })) ∧
    (∀ (ok : Bool) (num : Byte) (bytes : List Byte) (m : Nat) (hist : History),
      answerAccepted (s.tiu.get h) ok num.toNat s.now = true → (s.tiu.get h).busy = .write1 m hist →
      exec (.headAnswer h ok num (.done bytes)) s = .next { s with tiu := s.tiu.set h { s.tiu.get h with
        number := command, busy := .write2 m hist,
        waiting := some { number := command, op := .writeFragment 2 m (historyFragment2 hist),
                          beginMark := false, endMark := true, sentAt := s.now } } }) ∧
    (∀ (ok : Bool) (num : Byte) (result : HeadResult) (m : Nat) (hist : History) (sum : Summary)
        (clock : Nat) (sure : Bool),
      answerAccepted (s.tiu.get h) ok num.toNat s.now = true → (s.tiu.get h).busy = .write2 m hist →
      (s.tiu.get h).requester = some .hc → hc.tagStep = .writing → hc.summary = some sum →
      hc.closeTime = some (clock, sure) →
      let done := decide (result ≠ .absent) && decide (result ≠ .otherTag)
      ∃ t : State, exec (.headAnswer h ok num result) s = .next t ∧
        (t.hc.get h).state = .writing ∧ (t.hc.get h).tagStep = .none ∧
        (t.hc.get h).tagOutcome = some (if done then .done else .failed) ∧
        t.ju.recs = closed none sum (if done then .done else .failed) clock sure ∧
        (.record n ∈ t.ju.writeList ∨ t.ju.writing.map Prod.fst = some (.record n)) ∧
        (t.tiu.get h).busy = .idle ∧ (t.tiu.get h).present = done ∧
        (done = true → (t.tiu.get h).record
          = (s.tiu.get h).record.map (fun x => { x with history := hist })) ∧
        t.hc.get h.other = s.hc.get h.other)

/-! ### The pump and the prove -/

/-- With the pump running and no hose needing it, 5 s of run-on begin, in which the pump-run output stays active;
their end stops the pump. Each 100 s the budget level falls by one, and the fall timer stops at 0. With no hose
waiting nothing else changes; a hose held at level 6 is served by the fall. A hose that asks for the pump joins one
that is RUNNING; in RUN_ON the run-on is cancelled and it joins; STOPPED below level 6 the pump starts, the level goes
up by one, the fall timer starts with the first, and it joins; at level 6 it is held; and each of the first three
serves a hose that waits too. Joined, its no-flow timer, or in a prove its idle timer, runs 60 s, and its stage opens:
SLOW when slow is forced or the limit is within the slow-down volume, otherwise FULL. After the warning a request is
refused. Where it speaks of the due time a time-driven command stands for (log 2) and of a fall timer that keeps its
grid when a fall is late (log 18), that is the model's choice. -/
def Obligations.PumpTimes : Prop :=
  ∀ (s : State) (d : Nat),
    (s.pump.state = .running → hoseNeeds s .a = false → hoseNeeds s .b = false →
      pumpSettle s = { s with pump := { s.pump with state := .runOn, runOnAt := some (s.now + sec 5) } } ∧
      pumpRun (pumpSettle s) = true) ∧
    (s.pump.state ≠ .running ∨ hoseNeeds s .a = true ∨ hoseNeeds s .b = true → pumpSettle s = s) ∧
    (pumpRun s = false ↔ s.pump.state = .stopped) ∧
    (s.power = .released →
      (s.pump.state = .runOn → s.pump.runOnAt = some d → exec .runOnTimer s = .next { s with
        now := max s.now d, pump := { s.pump with state := .stopped, runOnAt := none } }) ∧
      (s.pump.fallAt = some d → s.pump.waiting = Two.both false → exec .budgetFall s = .next { s with
        now := max s.now d,
        pump := { s.pump with
          level := s.pump.level - 1,
          fallAt := if s.pump.level ≤ 1 then none else some (d + sec 100) } }) ∧
      (∀ h, s.pump.fallAt = some d → s.pump.state = .stopped → s.pump.level = 6 → s.warned = false →
        s.pump.waiting.get h = true → (s.hc.get h).state = .authorised →
        ∃ t : State, exec .budgetFall s = .next t ∧ t.pump.state = .running ∧ t.pump.level = 6 ∧
          t.pump.waiting = Two.both false ∧ (t.hc.get h).joined = true ∧ (t.hc.get h).stage ≠ .closed ∧
          (t.hc.get h).noFlowAt = some (max s.now d + sec 60))) ∧
    (∀ (h : Hose) (hc : Hc) (total : Nat) (stage : Stage), hc = s.hc.get h →
      total = (if hc.state = .proving then grossTotal s h else stdTotal s h) →
      stage = (if hc.forcedSlow = true ∨ hc.limit.getD 0 * 10000
        ≤ total + (s.cfg.params.hose.get h).slowDown * 10000 then Stage.slow else .full) →
      let joined := s.hc.set h (if hc.state = .proving
        then { hc with joined := true, idleAt := some (s.now + sec 60), stage := stage }
        else { hc with joined := true, noFlowAt := some (s.now + sec 60), stage := stage })
      (s.warned = true → pumpRequest h s = s) ∧
      (s.warned = false →
        (s.pump.waiting = Two.both false →
          (s.pump.state = .running → pumpRequest h s = { s with hc := joined }) ∧
          (s.pump.state = .runOn → pumpRequest h s = { s with
            hc := joined, pump := { s.pump with state := .running, runOnAt := none } }) ∧
          (s.pump.state = .stopped → s.pump.level < 6 → pumpRequest h s = { s with
            hc := joined,
            pump := { s.pump with
              state := .running, level := s.pump.level + 1,
              fallAt := if s.pump.level = 0 then some (s.now + sec 100) else s.pump.fallAt } })) ∧
        (s.pump.state = .stopped → 6 ≤ s.pump.level → pumpRequest h s = { s with
          pump := { s.pump with waiting := s.pump.waiting.set h true } }) ∧
        (s.pump.waiting.get h.other = true → s.pump.state ≠ .stopped ∨ s.pump.level < 6 →
          let t := pumpRequest h s
          t.pump.state = .running ∧ t.pump.waiting = Two.both false ∧
          (t.hc.get h).joined = true ∧ (t.hc.get h.other).joined = true)))

/-- The keys and times of a prove before its run. A HOSE key in SELECT chooses an IDLE hose, which is in PROVING and
has 120 s for its vessel, and raises "hose not idle" for any other. ENTER with authority takes a vessel size of 1,000
to 100,000 cL and the prove is READY; another value and ENTER without authority only raise a prompt. CLEAR with an
empty entry ends the prove, and so do 10 s in SELECT and 120 s in SIZE or READY: no record, and its hose let go.
Where it speaks of the due time a time-driven command stands for (log 2) and of the 120 s that run on from SIZE into
READY (log 49) and of how long "supervisor key required" then stands (log 67), that is the model's choice. -/
def Obligations.ProveKeysAndTimes : Prop :=
  ∀ (s : State) (num : Byte) (h : Hose), s.su.proveActive = false →
    let freed := { Prove.initial with factorWrite := s.prove.factorWrite }
    let value := entryValue s.au.digits
    let keyed := { taken num s with
      pp := { (taken num s).pp with selected := h }, au := { s.au with digits := [] },
      inspect := { s.inspect with closeAt := none } }
    let entered := { taken num s with au := { s.au with digits := [] } }
    (Takes s num → s.prove.phase = .select → (s.hc.get h).state = .idle →
      exec (.hoseKey num h) s = .next { keyed with
        prove := { s.prove with phase := .size, hose := some h, timerAt := some (s.now + sec 120) },
        hc := s.hc.set h { s.hc.get h with state := .proving } }) ∧
    (Takes s num → s.prove.phase = .select → (s.hc.get h).state ≠ .idle →
      exec (.hoseKey num h) s = .next (prompt .hoseNotIdle keyed)) ∧
    (Takes s num → s.pp.selected = h → s.prove.hose = some h → (s.hc.get h).state = .proving →
      s.prove.phase = .size ∨ s.prove.phase = .ready →
      (s.au.digits ≠ [] → s.pp.authority = true → 1000 ≤ value → value ≤ 100000 →
        (s.hc.get h).nozzleOut = false →
        exec (.enter num) s = .next { entered with
          prove := { s.prove with phase := .ready, vessel := some value } }) ∧
      (s.au.digits ≠ [] → s.pp.authority = true → value < 1000 ∨ 100000 < value →
        exec (.enter num) s = .next (prompt .vesselSizeOutOfRange entered)) ∧
      (s.au.digits ≠ [] → s.pp.authority = false →
        exec (.enter num) s = .next (prompt .supervisorKeyRequired entered)) ∧
      (s.au.digits = [] →
        exec (.clear num) s = .next { taken num s with
          prove := freed, hc := s.hc.set h (s.hc.get h).rest })) ∧
    (∀ d, s.power = .released → s.prove.timerAt = some d →
      (s.prove.phase = .select → s.prove.hose = none → exec .proveSelectTime s = .next { s with
        now := max s.now d, prove := freed }) ∧
      (s.prove.phase = .size ∨ s.prove.phase = .ready → s.prove.hose = some h →
        (s.hc.get h).state = .proving →
        exec .proveSizeTime s = .next { s with
          now := max s.now d, prove := freed, hc := s.hc.set h (s.hc.get h).rest }))

/-- The run of a prove and its reading. In READY with the nozzle out the run begins: the meter is opened for the
prove, the vessel size is the limit, SU counts the prove, and the hose joins a running pump or waits at level 6. The
end of the drain hands over to READING for 300 s, or with no pulse or a METER_FAULT to the record ABANDONED. A
reading of 1 to 110,000 cL is judged and its record taken, or waiting with no free slot; CLEAR and the 300 s record
ABANDONED, and the hose is let go. Where it speaks of the due time a time-driven command stands for (log 2) and of
the F′ shown with an outcome that has none (log 38), that is the model's choice. -/
def Obligations.ProveRunAndReading : Prop :=
  ∀ (s : State) (num : Byte) (h : Hose) (d : Nat), s.power = .released → s.prove.hose = some h →
    (s.hc.get h).state = .proving →
    let recorded (t : State) (p : ProveRec) (shown : Nat) : Prop :=
      t.prove.phase = .recording ∧ t.prove.outcome = some p.outcome ∧ t.prove.band = p.band ∧
      t.prove.oldF = p.oldF ∧ t.prove.newF = p.newF ∧ t.prove.vp = p.vp ∧ t.prove.timerAt = none ∧
      (t.hc.get h).state = restState (s.hc.get h).nozzleOut ∧
      (t.hc.get h).proveShown = some (p.outcome, p.oldF, shown) ∧ t.hc.get h.other = s.hc.get h.other ∧
      (0 < s.ju.free → t.prove.step = .record (s.ju.counter + 1) ∧ t.ju.counter = s.ju.counter + 1 ∧
        t.ju.recs = s.ju.recs
          ++ [JRec.mk (s.ju.counter + 1) s.lc.clock s.lc.sure (.prove p) .opened 0 none]) ∧
      (s.ju.free = 0 → t.prove.step = .waiting ∧ t.ju.counter = s.ju.counter ∧ t.ju.recs = s.ju.recs ∧
        t.ju.waiting = joinWaiting (.prove p) s.ju.waiting)
    let run (t : State) (v : Nat) : Prop :=
      t.prove.phase = .run ∧ t.prove.timerAt = none ∧ t.prove.vessel = some v ∧ t.su.proveActive = true ∧
      (t.mu.get h).dispense = some ((s.mu.get h).opening true) ∧ (t.hc.get h).limit = some v ∧
      (t.hc.get h).endCause = none ∧ (t.hc.get h).state = .proving ∧ t.ju = s.ju ∧
      (s.pump.state = .running → s.pump.waiting = Two.both false →
        t.pump = s.pump ∧ (t.hc.get h).joined = true ∧ (t.hc.get h).idleAt = some (s.now + sec 60) ∧
        (t.hc.get h).stage = (if v ≤ slowDownOf s h then .slow else .full)) ∧
      (s.pump.state = .stopped → 6 ≤ s.pump.level →
        t.pump = { s.pump with waiting := s.pump.waiting.set h true } ∧ (t.hc.get h).joined = false ∧
        (t.hc.get h).stage = .closed)
    (∀ v, s.warned = false → (s.mu.get h).dispense = none → s.prove.phase = .ready →
      s.prove.vessel = some v → (s.hc.get h).nozzleOut = false →
      ∃ t : State, exec (.nozzleLift h) s = .next t ∧ run t v) ∧
    (Takes s num → s.warned = false → (s.mu.get h).dispense = none → s.pp.selected = h →
      s.pp.authority = true → s.prove.phase = .size ∨ s.prove.phase = .ready → s.au.digits ≠ [] →
      1000 ≤ entryValue s.au.digits → entryValue s.au.digits ≤ 100000 → (s.hc.get h).nozzleOut = true →
      ∃ t : State, exec (.enter num) s = .next t ∧ run t (entryValue s.au.digits)) ∧
    (∀ (i : Instr) (m : MuDispense) (c : EndCause),
      (i = .drainEnd h ∧ (s.hc.get h).drainAt = some d ∨
        i = .drainTimeLimit h ∧ (s.hc.get h).drainLimitAt = some d) →
      s.prove.phase = .run → (s.mu.get h).dispense = some m → m.isProve = true →
      (s.hc.get h).endCause = some c → c ≠ .powerFail → s.warned = false →
      ∃ t : State, exec i s = .next t ∧ t.now = max s.now d ∧ (t.mu.get h).dispense = none ∧
        t.prove.summary = some m.summary ∧ t.prove.factors = m.factors ∧ t.prove.endCause = some c ∧
        t.su = s.su ∧
        (c ≠ .meterFault → pulseTotal m.pulses ≠ 0 →
          t.prove.phase = .reading ∧ t.prove.timerAt = some (max s.now d + sec 300) ∧
          (t.hc.get h).state = .proving ∧ (t.hc.get h).joined = false ∧ t.ju = s.ju) ∧
        (pulseTotal m.pulses = 0 → recorded t
          { hose := h, band := none, oldF := 0, newF := 0, vm := roundClNat m.gross, vp := none,
            outcome := .abandoned, supervisor := s.prove.supervisor } 0) ∧
        (c = .meterFault → pulseTotal m.pulses ≠ 0 →
          let f := m.factors.get (proveBand m.pulses)
          recorded t
            { hose := h, band := some (proveBand m.pulses), oldF := f, newF := f, vm := roundClNat m.gross,
              vp := none, outcome := .abandoned, supervisor := s.prove.supervisor } f)) ∧
    (∀ sum : Summary, s.prove.phase = .reading → s.prove.summary = some sum → pulseTotal sum.pulses ≠ 0 →
      s.warned = false →
      let vp := entryValue s.au.digits
      let j := judgeProve sum.pulses s.prove.factors sum.gross vp
      let f := s.prove.factors.get (proveBand sum.pulses)
      let dropped : ProveRec :=
        { hose := h, band := some (proveBand sum.pulses), oldF := f, newF := f, vm := sum.gross, vp := none,
          outcome := .abandoned, supervisor := s.prove.supervisor }
      (Takes s num → s.pp.selected = h → s.pp.authority = true → s.au.digits ≠ [] → 1 ≤ vp → vp ≤ 110000 →
        ∃ t : State, exec (.enter num) s = .next t ∧ t.su = s.su ∧ recorded t
          { hose := h, band := some (proveBand sum.pulses), oldF := j.2.1, newF := j.2.2, vm := sum.gross,
            vp := some vp, outcome := j.1, supervisor := s.prove.supervisor }
          (shownFactor j.1 j.2.1 vp sum.gross)) ∧
      (Takes s num → s.pp.selected = h → s.au.digits = [] →
        ∃ t : State, exec (.clear num) s = .next t ∧ t.su = s.su ∧ recorded t dropped f) ∧
      (s.prove.timerAt = some d →
        ∃ t : State, exec .proveReadingTime s = .next t ∧ t.now = max s.now d ∧ t.su = s.su ∧
          recorded t dropped f))

/-- A prove is UNSTEADY when its meter passed nothing or the chosen band has less than 80 % of the pulses,
OUT_OF_RANGE when the correction exceeds 2 % of F or F′ lies outside 95,000 to 105,000, and otherwise ACCEPTED
with F′ = F × V_p / V_m rounded half up; the chosen band has the most pulses. -/
def Obligations.ProveIsJudged : Prop :=
  ∀ (pulses factors : Quad Nat) (vm vp f : Nat), f = factors.get (proveBand pulses) →
    (∀ b ∈ [1, 2, 3, 4], pulses.get b ≤ pulses.get (proveBand pulses)) ∧
    (vm = 0 ∨ pulses.get (proveBand pulses) * 100 < pulseTotal pulses * 80 →
      judgeProve pulses factors vm vp = (.unsteady, f, f)) ∧
    (0 < vm → pulseTotal pulses * 80 ≤ pulses.get (proveBand pulses) * 100 →
      let f' := (2 * f * vp + vm) / (2 * vm)
      (95000 ≤ f' → f' ≤ 105000 → 50 * (max f f' - min f f') ≤ f →
        judgeProve pulses factors vm vp = (.accepted, f, f')) ∧
      (f' < 95000 ∨ 105000 < f' ∨ f < 50 * (max f f' - min f f') →
        judgeProve pulses factors vm vp = (.outOfRange, f, f)))

/-! ### Offers, store writes, prices, gauge -/

/-- The retry wait ends, or a re-offer falls due, and JU chooses again: with no candidate nothing more happens; a
candidate with room in the queue is OFFERED, all its fragments waiting, and one made before counts as a re-offer; with
no room the offer is refused and the retry wait of 1 s begins. Where it speaks of the due time a time-driven command
stands for (log 2), that is the model's choice. -/
def Obligations.OffersAreChosen : Prop :=
  ∀ (s : State) (d : Nat), s.power = .released →
    (s.ju.retryAt = some d → (∀ r ∈ s.ju.recs, r.state = .opened) →
      exec .offerRetryWait s = .next { s with now := max s.now d, ju := { s.ju with retryAt := none } }) ∧
    (∀ i r rest, s.ju.recs = r :: rest → r.number = s.ju.mark + 1 →
      (i = .reofferDue r.number ∧ r.state = .offered ∧ r.dueAt = some d ∧ s.ju.retryAt = none ∨
        i = .offerRetryWait ∧ s.ju.retryAt = some d ∧
          (r.state = .closed ∨ r.state = .offered ∧ ∃ due, r.dueAt = some due ∧ due ≤ max s.now d)) →
      s.warned = false → s.lc.link = .joined ∨ s.lc.link = .isolated → s.ju.offer = none →
      (s.lc.queue = [] → s.lc.gapMet = false → s.lc.spacing.held = false → s.lc.tx = none → s.lc.countdown = none →
        ∃ t : State, exec i s = .next t ∧ t.now = max s.now d ∧ t.ju.retryAt = none ∧
          (∃ o, t.ju.offer = some o ∧ o.number = r.number ∧ o.fragments = t.lc.queue.length) ∧
          (∀ x ∈ t.ju.recs, x.number = r.number → x.state = .offered) ∧
          t.lc.queue.map TxFrame.bytes = recordFrames (stationId s) r.number r.time r.sure r.body ∧
          (∀ f ∈ t.lc.queue, f.cls = 4) ∧
          t.ju.reoffers = (if 1 ≤ r.offers then (if s.ju.reoffers = max16 then 0 else s.ju.reoffers + 1)
            else s.ju.reoffers)) ∧
      (16 ≤ s.lc.queue.length → exec i s = .next { s with
        now := max s.now d, ju := { s.ju with retryAt := some (max s.now d + sec 1) } }))

/-- A store write ends. GOOD: the store holds its contents. FAILED: the store is as before, STORE_FAULT stands,
and the failure is counted with its area. With nothing more asked for, nothing else changes. A request whose
requester waits already changes nothing; one while a write is under way joins the queue; with nothing under way it
is performed at once with its contents of that moment. The end of a DISPENSE record's closed write, GOOD or not,
makes it CLOSED, takes its own close into the machine table, places its DRAW frame and lets its hose go. The end of a
record's write of any other kind makes it CLOSED too: of a DELIVERY or ADJUST it moves the settled sequence and SU asks
for a stock write; of a PRICEBOOK, GOOD, it makes the switch and a bank write is asked for, and FAILED blocks it; of a
REFUSAL, STOCKCHECK or LOST record it changes nothing of another block. The end of the write of an open record or of the
mark changes nothing of the journal, and JU asks for the next entry of its list. SU and PBU ask again for what changed
during their write. The oldest request that waits is then performed. The end of
a PROVE record's write asks for the factor write of an ACCEPTED prove and ends any other; FAILED shows "factor not
stored". The end of the factor write puts the factor into the meter's table, or shows "factor not stored". Where it
speaks of a factor write that outlasts its prove (log 29), of the order of the steps (log 26) and of the area that a
FAILED record's write shows (log 61), that is the model's choice. -/
def Obligations.StoreWritesAreAskedForAndEnd : Prop :=
  ∀ (s : State) (r : Requester) (w : WriteContents) (good : Bool),
    let st := if good then s.store.commit w else s.store
    let failed : Sc := { s.sc with
      current := none, fault := true, failures := satInc max16 s.sc.failures, lastFailed := some w.area }
    (s.power ≠ .off → s.sc.current = some (r, w) → s.sc.queue = [] →
      (r = .lc ∨ r = .hc .a ∨ r = .hc .b ∨ (r = .su ∧ s.su.again = false) ∨
        (r = .pbu ∧ s.pbu.again = false)) →
      exec (.storeWriteEnd true) s = .next { s with
        store := s.store.commit w, sc := { s.sc with current := none } } ∧
      exec (.storeWriteEnd false) s = .next { s with sc := failed }) ∧
    (s.sc.queue.contains r = true → scAsk r s = s) ∧
    (∀ c, s.sc.current = some c → s.sc.queue.contains r = false →
      scAsk r s = { s with sc := { s.sc with queue := s.sc.queue ++ [r] } }) ∧
    (s.sc.current = none → s.sc.queue = [] →
      (scAsk r s).sc = { s.sc with current := some (r, writeContents r s) }) ∧
    (∀ h n x d, s.power = .released → s.sc.current = some (.ju, w) → s.ju.writing = some (.record n, true) →
      s.ju.find n = some x → x.number = n → x.body = .dispense d → d.hose = h →
      s.ju.slots.get h = some (.numbered n) → (s.hc.get h).state = .writing →
      let m := (s.hc.get h).machine.getD 0
      let draw := closeDraw (stationId s) (s.hc.get h)
      ∃ t : State, exec (.storeWriteEnd good) s = .next t ∧ t.store = st ∧
        (good = false → t.sc.fault = true ∧ t.sc.lastFailed = some w.area) ∧
        t.ju.slots.get h = none ∧ (∀ y ∈ t.ju.recs, y.number = n → y.state ≠ .opened) ∧
        t.ju.recs.map JRec.body = s.ju.recs.map JRec.body ∧
        t.hc.get h = (s.hc.get h).rest ∧ t.hc.get h.other = s.hc.get h.other ∧
        t.mt = (s.mt.touch m s.lc.clock (fun e => ({ e with lastUse := s.lc.clock } : Entry).merge
          s.lc.clock draw)).upd m (fun e => if e.busy = some h then { e with busy := none } else e) ∧
        (0 < draw.volume → lcTakes s .draw = true → s.lc.queue.length < 16 → s.lc.gapMet = false →
          drawFrame (stationId s) m draw ∈ t.lc.queue)) ∧
    (∀ n x p, s.power = .released → s.sc.current = some (.ju, w) → s.ju.writing = some (.record n, true) →
      s.ju.find n = some x → x.number = n → x.body = .prove p → s.prove.step = .record n →
      ∃ t : State, exec (.storeWriteEnd good) s = .next t ∧ t.store = st ∧
        (good = true → s.prove.outcome = some .accepted →
          t.prove.step = .factor ∧ t.prove.phase = s.prove.phase ∧
          t.prove.factorWrite = some { hose := s.prove.hose.getD .a, band := s.prove.band.getD 1,
                                       newF := s.prove.newF } ∧
          (.proving ∈ t.sc.queue ∨ t.sc.current.map Prod.fst = some .proving)) ∧
        (good = false ∨ s.prove.outcome ≠ some .accepted →
          t.prove.phase = .none ∧ t.su.proveActive = false ∧
          (s.su.proveActive = true → t.su.proveEnd = some s.now)) ∧
        (good = false → (t.hc.get (s.prove.hose.getD .a)).factorNotStored = true)) ∧
    (∀ n x, s.power ≠ .off → s.sc.current = some (.ju, w) → s.ju.writing = some (.record n, true) →
      s.ju.find n = some x → x.number = n →
      (∀ v, x.body ≠ .dispense v) → (∀ v, x.body ≠ .prove v) →
      ∃ t : State, exec (.storeWriteEnd good) s = .next t ∧ t.store = st ∧
        (good = false → t.sc.fault = true ∧ t.sc.lastFailed = some w.area) ∧
        (∀ y ∈ t.ju.recs, y.number = n → y.state ≠ .opened) ∧ t.ju.recs.map JRec.body = s.ju.recs.map JRec.body ∧
        t.hc = s.hc ∧ t.mt = s.mt ∧ t.prove = s.prove ∧
        ((∀ a b c d e, x.body ≠ .delivery a b c d e) → (∀ a b, x.body ≠ .adjust a b) → t.su = s.su) ∧
        ((∃ a b c d e, x.body = .delivery a b c d e) ∨ (∃ a b, x.body = .adjust a b) →
          t.su = { s.su with settledSeq := max s.su.settledSeq n } ∧
          (.su ∈ t.sc.queue ∨ t.sc.current.map Prod.fst = some .su)) ∧
        ((∀ a b, x.body ≠ .priceBook a b) → t.pbu = s.pbu) ∧
        (∀ a b, x.body = .priceBook a b →
          (good = true → t.pbu = { s.pbu with
              banks := ⟨s.pbu.banks.one.switched, s.pbu.banks.two.switched⟩, switchState := .idle } ∧
            (.pbu ∈ t.sc.queue ∨ t.sc.current.map Prod.fst = some .pbu)) ∧
          (good = false → t.pbu = { s.pbu with switchState := .blocked }))) ∧
    (∀ e, s.power ≠ .off → s.sc.current = some (.ju, w) → s.ju.writing = some e → e.1 = .mark ∨ e.2 = false →
      s.sc.queue = [] →
      let sc := if good then { s.sc with current := none } else failed
      (s.ju.writeList = [] → exec (.storeWriteEnd good) s = .next { s with
        store := st, sc := sc, ju := { s.ju with writing := none } }) ∧
      (∀ next rest, s.ju.writeList = next :: rest →
        ∃ t : State, exec (.storeWriteEnd good) s = .next t ∧ t.store = st ∧
          t.sc.current.map Prod.fst = some .ju ∧ t.sc.queue = [] ∧ t.sc.fault = sc.fault ∧
          t.ju.writing.map Prod.fst = some next ∧ t.ju.writeList = rest ∧ t.ju.recs = s.ju.recs)) ∧
    (s.power ≠ .off → s.sc.queue = [] →
      (s.sc.current = some (.su, w) → s.su.again = true →
        ∃ t : State, exec (.storeWriteEnd good) s = .next t ∧ t.store = st ∧ t.su = { s.su with again := false } ∧
          t.sc.current = some (.su, .stock (stockArea s)) ∧ t.sc.queue = [] ∧ t.ju = s.ju) ∧
      (s.sc.current = some (.pbu, w) → s.pbu.again = true →
        ∃ t : State, exec (.storeWriteEnd good) s = .next t ∧ t.store = st ∧ t.pbu = { s.pbu with again := false } ∧
          t.sc.current = some (.pbu, .banks s.pbu.banks) ∧ t.sc.queue = [] ∧ t.ju = s.ju)) ∧
    (∀ next rest, s.power ≠ .off → s.sc.current = some (r, w) → r = .lc ∨ r = .hc .a ∨ r = .hc .b →
      s.sc.queue = next :: rest →
      ∃ t : State, exec (.storeWriteEnd good) s = .next t ∧ t.store = st ∧ t.sc.queue = rest ∧
        t.sc.current = some (next, writeContents next s)) ∧
    (∀ f : FactorWrite, s.power ≠ .off → s.sc.current = some (.proving, w) → s.sc.queue = [] →
      s.prove.factorWrite = some f →
      let prove := if s.prove.phase = .recording then Prove.initial else { s.prove with factorWrite := none }
      let su := if s.prove.phase = .recording ∧ s.su.proveActive = true then
        { s.su with proveActive := false, proveEnd := some s.now } else s.su
      exec (.storeWriteEnd true) s = .next { s with
        store := s.store.commit w, sc := { s.sc with current := none }, prove := prove, su := su,
        mu := s.mu.set f.hose { s.mu.get f.hose with
          table := (s.mu.get f.hose).table.set f.band f.newF } } ∧
      exec (.storeWriteEnd false) s = .next { s with
        sc := failed, prove := prove, su := su,
        hc := s.hc.set f.hose { s.hc.get f.hose with factorNotStored := true } })

/-- The amount of a close is floor((V × P + 500) / 1,000) cents, set in the record by the one close step, also for
a record that recovery closes; at the largest volume and price it stays below 1,677,704,724. -/
def Obligations.AmountOfARecord : Prop :=
  ∀ (d : DispenseRec) (c : CloseFields) (a : StockArea) (n clock : Nat),
    ((d.closeWith c).close.map CloseFields.amount = some ((c.std * d.price + 500) / 1000)) ∧
    ((d.closeWith c).close.map CloseFields.std = some c.std) ∧
    (d.price = 0 → (d.closeWith c).close.map CloseFields.amount = some 0) ∧
    ((recoveredDispense a n clock d).close.map CloseFields.amount
      = some ((recoveredStd a n d * d.price + 500) / 1000)) ∧
    (c.std ≤ 16777215 → d.price ≤ 99999 →
      c.std * d.price < 1700000000000 ∧ (c.std * d.price + 500) / 1000 < 1677704724)

/-- The dispensing rate is floor(S / 80,000) of the eight-hour sum; the cover is 9,999 at rate 0 and otherwise
floor(A × 10 / rate), at most 9,999, with A the available stock as given; the site line shows it. -/
def Obligations.CoverOfTheStock : Prop :=
  ∀ s : State,
    (s.su.hours.sum / 80000 = 0 → cover s = 9999) ∧
    (0 < s.su.hours.sum / 80000 → cover s = min 9999 (availableGiven s * 10 / (s.su.hours.sum / 80000))) ∧
    (siteLine s).cover = cover s

/-- A valid gauge reading keeps level, temperature, history and gauge standard, and the gauge is GOOD; an invalid
one only counts. A check that is due, with the gauge settled and no retry wait, then takes a STOCKCHECK record of
gauge, book and variance, inside or outside the tolerance of 20 L and half a percent of the tank; the third OUT_LOW
running sets the loss state; with no free slot the check is skipped for 60 s. 10 s with no valid reading make it
GAUGE_FAULT with the history empty; the retry wait of a stock check ends; and each hour the totals move back one
place. Where it speaks of the due time a time-driven command stands for (log 2) and of the retry wait (log 33), that
is the model's choice. -/
def Obligations.GaugeAndStockTimes : Prop :=
  ∀ (s : State) (fault : Bool) (level : Nat) (temperature : Int),
    (s.power = .released →
      (fault = false → level ≤ 4000 → -400 ≤ temperature → temperature ≤ 700 →
        exec (.gaugeReading fault level temperature) s
          = .next (considerCheck (takeReading level temperature s)) ∧
        (s.su.strapUsable = true → s.su.deliverySince = false → s.now < s.su.lastCheck + sec 1800 →
          ∃ u : Su, exec (.gaugeReading fault level temperature) s = .next { s with su := u } ∧
            u.gauge = .good ∧ u.lastValid = s.now ∧ u.lastLevel = some level ∧
            u.lastTemp = some temperature ∧ u.history = addLevel level s.su.history ∧
            u.standard = some (gaugeStandard (tankVolume (strapTable s.cfg.params.strapPoints) level)
              s.cfg.params.tankAlpha temperature) ∧ u.book = s.su.book ∧ u.hours = s.su.hours)) ∧
      (fault = true ∨ 4000 < level ∨ temperature < -400 ∨ 700 < temperature →
        exec (.gaugeReading fault level temperature) s = .next { s with
          su := { s.su with gaugeBad := satInc max16 s.su.gaugeBad } }) ∧
      (s.su.gauge ≠ .fault → exec .gaugeTimeout s = .next { s with
        now := max s.now (s.su.lastValid + sec 10),
        su := { s.su with gauge := .fault, history := [] } }) ∧
      (∀ d, s.su.retryAt = some d → exec .checkRetryWait s = .next { s with
        now := max s.now d, su := { s.su with retryAt := none } }) ∧
      exec .hourEnd s = .next { s with
        now := max s.now s.su.hourEnd,
        su := { s.su with hours := 0 :: s.su.hours.take 7, hourEnd := s.su.hourEnd + sec 3600 } }) ∧
    (∀ g, s.su.standard = some g → settled s = true → s.warned = false → s.su.retryAt = none →
      let b := bookCl s.su.book
      let v : Int := (g : Int) - b
      let t : Int := 2000 + (s.cfg.params.tankCapacity / 2 : Nat)
      let o : CheckOutcome := if v < -t then .outLow else if t < v then .outHigh else .inside
      let low := if o = .outLow then min 3 (s.su.lowCount + 1) else 0
      let loss := s.su.loss || decide (low = 3)
      (s.now < s.su.lastCheck + sec 1800 → s.su.deliverySince = false → considerCheck s = s) ∧
      (s.su.lastCheck + sec 1800 ≤ s.now ∨ s.su.deliverySince = true →
        (s.ju.free = 0 → considerCheck s = { s with
          su := { s.su with retryAt := some (s.now + sec 60), checkSkipped := true } }) ∧
        (0 < s.ju.free → s.su.lowCount ≤ 3 →
          let u := considerCheck s
          u.ju.counter = s.ju.counter + 1 ∧
          u.ju.recs = s.ju.recs
            ++ [JRec.mk (s.ju.counter + 1) s.lc.clock s.lc.sure (.stockCheck g b v o loss) .opened 0 none] ∧
          u.su.lowCount = low ∧ u.su.loss = loss ∧ u.su.lastCheck = s.now ∧ u.su.deliverySince = false ∧
          u.su.checkSkipped = false ∧ u.su.overCapacity = false ∧ u.su.lastOutcome = some (o, v) ∧
          u.su.book = s.su.book ∧ u.su.claim = s.su.claim ∧ u.lc = s.lc ∧ u.hc = s.hc ∧
          (.record (s.ju.counter + 1) ∈ u.ju.writeList ∨
            u.ju.writing.map Prod.fst = some (.record (s.ju.counter + 1))))))

end
end

