-- ==== Sys2Proof/Laws/State.lean ====
section
/-! SUPPORT. What the updates of per-hose state leave: one lemma per field per update, each true by
computation. -/

namespace Sys2Proof

@[simp] theorem Two.get_both {α : Type} (x : α) (h : Hose) : (Two.both x).get h = x := by cases h <;> rfl

@[simp] theorem Two.get_set_self {α : Type} (t : Two α) (h : Hose) (x : α) : (t.set h x).get h = x := by
  cases h <;> rfl

@[simp] theorem Two.get_set_other {α : Type} (t : Two α) (h : Hose) (x : α) :
    (t.set h x).get h.other = t.get h.other := by cases h <;> rfl

theorem Two.get_set_of_ne {α : Type} (t : Two α) {h k : Hose} (x : α) (hk : k ≠ h) :
    (t.set h x).get k = t.get k := by cases h <;> cases k <;> first | rfl | exact absurd rfl hk

@[simp] theorem Two.set_set {α : Type} (t : Two α) (h : Hose) (x y : α) :
    (t.set h x).set h y = t.set h y := by cases h <;> rfl

@[simp] theorem Two.set_get {α : Type} (t : Two α) (h : Hose) : t.set h (t.get h) = t := by cases h <;> rfl

end Sys2Proof

namespace Sys2Proof.Machine

variable (s : State) (h : Hose)

section UpdHc
variable (f : Hc → Hc)
@[simp] theorem updHc_hc : (s.updHc h f).hc = s.hc.set h (f (s.hc.get h)) := rfl
@[simp] theorem updHc_pending : (s.updHc h f).pending = s.pending := rfl
@[simp] theorem updHc_power : (s.updHc h f).power = s.power := rfl
@[simp] theorem updHc_warned : (s.updHc h f).warned = s.warned := rfl
@[simp] theorem updHc_now : (s.updHc h f).now = s.now := rfl
@[simp] theorem updHc_draws : (s.updHc h f).draws = s.draws := rfl
@[simp] theorem updHc_cfg : (s.updHc h f).cfg = s.cfg := rfl
@[simp] theorem updHc_store : (s.updHc h f).store = s.store := rfl
@[simp] theorem updHc_lc : (s.updHc h f).lc = s.lc := rfl
@[simp] theorem updHc_tiu : (s.updHc h f).tiu = s.tiu := rfl
@[simp] theorem updHc_mt : (s.updHc h f).mt = s.mt := rfl
@[simp] theorem updHc_au : (s.updHc h f).au = s.au := rfl
@[simp] theorem updHc_mu : (s.updHc h f).mu = s.mu := rfl
@[simp] theorem updHc_pump : (s.updHc h f).pump = s.pump := rfl
@[simp] theorem updHc_ju : (s.updHc h f).ju = s.ju := rfl
@[simp] theorem updHc_pbu : (s.updHc h f).pbu = s.pbu := rfl
@[simp] theorem updHc_su : (s.updHc h f).su = s.su := rfl
@[simp] theorem updHc_sc : (s.updHc h f).sc = s.sc := rfl
@[simp] theorem updHc_pp : (s.updHc h f).pp = s.pp := rfl
@[simp] theorem updHc_prove : (s.updHc h f).prove = s.prove := rfl
@[simp] theorem updHc_inspect : (s.updHc h f).inspect = s.inspect := rfl
end UpdHc

section UpdMu
variable (f : Mu → Mu)
@[simp] theorem updMu_mu : (s.updMu h f).mu = s.mu.set h (f (s.mu.get h)) := rfl
@[simp] theorem updMu_pending : (s.updMu h f).pending = s.pending := rfl
@[simp] theorem updMu_power : (s.updMu h f).power = s.power := rfl
@[simp] theorem updMu_warned : (s.updMu h f).warned = s.warned := rfl
@[simp] theorem updMu_now : (s.updMu h f).now = s.now := rfl
@[simp] theorem updMu_draws : (s.updMu h f).draws = s.draws := rfl
@[simp] theorem updMu_cfg : (s.updMu h f).cfg = s.cfg := rfl
@[simp] theorem updMu_store : (s.updMu h f).store = s.store := rfl
@[simp] theorem updMu_lc : (s.updMu h f).lc = s.lc := rfl
@[simp] theorem updMu_tiu : (s.updMu h f).tiu = s.tiu := rfl
@[simp] theorem updMu_mt : (s.updMu h f).mt = s.mt := rfl
@[simp] theorem updMu_au : (s.updMu h f).au = s.au := rfl
@[simp] theorem updMu_hc : (s.updMu h f).hc = s.hc := rfl
@[simp] theorem updMu_pump : (s.updMu h f).pump = s.pump := rfl
@[simp] theorem updMu_ju : (s.updMu h f).ju = s.ju := rfl
@[simp] theorem updMu_pbu : (s.updMu h f).pbu = s.pbu := rfl
@[simp] theorem updMu_su : (s.updMu h f).su = s.su := rfl
@[simp] theorem updMu_sc : (s.updMu h f).sc = s.sc := rfl
@[simp] theorem updMu_pp : (s.updMu h f).pp = s.pp := rfl
@[simp] theorem updMu_prove : (s.updMu h f).prove = s.prove := rfl
@[simp] theorem updMu_inspect : (s.updMu h f).inspect = s.inspect := rfl
end UpdMu

section UpdTiu
variable (f : Tiu → Tiu)
@[simp] theorem updTiu_tiu : (s.updTiu h f).tiu = s.tiu.set h (f (s.tiu.get h)) := rfl
@[simp] theorem updTiu_pending : (s.updTiu h f).pending = s.pending := rfl
@[simp] theorem updTiu_power : (s.updTiu h f).power = s.power := rfl
@[simp] theorem updTiu_warned : (s.updTiu h f).warned = s.warned := rfl
@[simp] theorem updTiu_now : (s.updTiu h f).now = s.now := rfl
@[simp] theorem updTiu_draws : (s.updTiu h f).draws = s.draws := rfl
@[simp] theorem updTiu_cfg : (s.updTiu h f).cfg = s.cfg := rfl
@[simp] theorem updTiu_store : (s.updTiu h f).store = s.store := rfl
@[simp] theorem updTiu_lc : (s.updTiu h f).lc = s.lc := rfl
@[simp] theorem updTiu_mt : (s.updTiu h f).mt = s.mt := rfl
@[simp] theorem updTiu_au : (s.updTiu h f).au = s.au := rfl
@[simp] theorem updTiu_mu : (s.updTiu h f).mu = s.mu := rfl
@[simp] theorem updTiu_hc : (s.updTiu h f).hc = s.hc := rfl
@[simp] theorem updTiu_pump : (s.updTiu h f).pump = s.pump := rfl
@[simp] theorem updTiu_ju : (s.updTiu h f).ju = s.ju := rfl
@[simp] theorem updTiu_pbu : (s.updTiu h f).pbu = s.pbu := rfl
@[simp] theorem updTiu_su : (s.updTiu h f).su = s.su := rfl
@[simp] theorem updTiu_sc : (s.updTiu h f).sc = s.sc := rfl
@[simp] theorem updTiu_pp : (s.updTiu h f).pp = s.pp := rfl
@[simp] theorem updTiu_prove : (s.updTiu h f).prove = s.prove := rfl
@[simp] theorem updTiu_inspect : (s.updTiu h f).inspect = s.inspect := rfl
end UpdTiu

section UpdSession
variable (f : Session → Session)
@[simp] theorem updSession_session :
    (s.updSession h f).au.session = s.au.session.set h (f (s.au.session.get h)) := rfl
@[simp] theorem updSession_preset : (s.updSession h f).au.preset = s.au.preset := rfl
@[simp] theorem updSession_digits : (s.updSession h f).au.digits = s.au.digits := rfl
@[simp] theorem updSession_pending : (s.updSession h f).pending = s.pending := rfl
@[simp] theorem updSession_power : (s.updSession h f).power = s.power := rfl
@[simp] theorem updSession_warned : (s.updSession h f).warned = s.warned := rfl
@[simp] theorem updSession_now : (s.updSession h f).now = s.now := rfl
@[simp] theorem updSession_draws : (s.updSession h f).draws = s.draws := rfl
@[simp] theorem updSession_cfg : (s.updSession h f).cfg = s.cfg := rfl
@[simp] theorem updSession_store : (s.updSession h f).store = s.store := rfl
@[simp] theorem updSession_lc : (s.updSession h f).lc = s.lc := rfl
@[simp] theorem updSession_tiu : (s.updSession h f).tiu = s.tiu := rfl
@[simp] theorem updSession_mt : (s.updSession h f).mt = s.mt := rfl
@[simp] theorem updSession_mu : (s.updSession h f).mu = s.mu := rfl
@[simp] theorem updSession_hc : (s.updSession h f).hc = s.hc := rfl
@[simp] theorem updSession_pump : (s.updSession h f).pump = s.pump := rfl
@[simp] theorem updSession_ju : (s.updSession h f).ju = s.ju := rfl
@[simp] theorem updSession_pbu : (s.updSession h f).pbu = s.pbu := rfl
@[simp] theorem updSession_su : (s.updSession h f).su = s.su := rfl
@[simp] theorem updSession_sc : (s.updSession h f).sc = s.sc := rfl
@[simp] theorem updSession_pp : (s.updSession h f).pp = s.pp := rfl
@[simp] theorem updSession_prove : (s.updSession h f).prove = s.prove := rfl
@[simp] theorem updSession_inspect : (s.updSession h f).inspect = s.inspect := rfl
end UpdSession

section Reach
variable (due : Nat)
@[simp] theorem reach_now : (s.reach due).now = max s.now due := rfl
@[simp] theorem reach_pending : (s.reach due).pending = s.pending := rfl
@[simp] theorem reach_power : (s.reach due).power = s.power := rfl
@[simp] theorem reach_warned : (s.reach due).warned = s.warned := rfl
@[simp] theorem reach_draws : (s.reach due).draws = s.draws := rfl
@[simp] theorem reach_cfg : (s.reach due).cfg = s.cfg := rfl
@[simp] theorem reach_store : (s.reach due).store = s.store := rfl
@[simp] theorem reach_lc : (s.reach due).lc = s.lc := rfl
@[simp] theorem reach_tiu : (s.reach due).tiu = s.tiu := rfl
@[simp] theorem reach_mt : (s.reach due).mt = s.mt := rfl
@[simp] theorem reach_au : (s.reach due).au = s.au := rfl
@[simp] theorem reach_mu : (s.reach due).mu = s.mu := rfl
@[simp] theorem reach_hc : (s.reach due).hc = s.hc := rfl
@[simp] theorem reach_pump : (s.reach due).pump = s.pump := rfl
@[simp] theorem reach_ju : (s.reach due).ju = s.ju := rfl
@[simp] theorem reach_pbu : (s.reach due).pbu = s.pbu := rfl
@[simp] theorem reach_su : (s.reach due).su = s.su := rfl
@[simp] theorem reach_sc : (s.reach due).sc = s.sc := rfl
@[simp] theorem reach_pp : (s.reach due).pp = s.pp := rfl
@[simp] theorem reach_prove : (s.reach due).prove = s.prove := rfl
@[simp] theorem reach_inspect : (s.reach due).inspect = s.inspect := rfl
end Reach

/-- A command of a part that has been released has its effect. -/
theorem live_released {s : State} (f : State → State) (hs : s.power = .released) :
    live s f = .next (f s) := by simp [live, hs]

/-- Before RELEASE such a command changes nothing. -/
theorem live_not_released {s : State} (f : State → State) (hs : s.power ≠ .released) :
    live s f = .next s := by simp [live, hs]

/-- A time-driven command whose timer runs has its effect at the due time. -/
@[simp] theorem atDue_some (t : Nat) (s : State) (f : State → State) : atDue (some t) s f = f (s.reach t) := rfl

/-- One whose timer is stopped changes nothing. -/
@[simp] theorem atDue_none (s : State) (f : State → State) : atDue none s f = s := rfl

end Sys2Proof.Machine
end

