-- ==== Sys2Proof/Laws/Commands.lean ====
section
/-! SUPPORT. What a heard frame, a forward pulse, a window end, an INSPECT press and the pages asked for do, said once for the provers
to cite. -/

namespace Sys2Proof.Machine

variable (s : State)

/-! ### Heard frames (R6, R13, R14) -/

/-- LC's start of a countdown changes the numbers drawn and its own queue, countdown, transmission and spacing alone. -/
theorem lcKick_eq : lcKick s = { s with
    draws := (lcKick s).draws,
    lc := { s.lc with
      queue := (lcKick s).lc.queue, countdown := (lcKick s).lc.countdown, tx := (lcKick s).lc.tx,
      gapMet := (lcKick s).lc.gapMet, spacing := (lcKick s).lc.spacing } } := by
  unfold lcKick
  split
  · split
    · rfl
    · dsimp only
      split
      · unfold startTx; dsimp only; split <;> rfl
      · rfl
  · rfl

/-- The count for record spacing changes what a start of a countdown changes. -/
theorem spacingHeard_eq : spacingHeard s = { s with
    draws := (spacingHeard s).draws,
    lc := { s.lc with
      queue := (spacingHeard s).lc.queue, countdown := (spacingHeard s).lc.countdown,
      tx := (spacingHeard s).lc.tx, gapMet := (spacingHeard s).lc.gapMet,
      spacing := (spacingHeard s).lc.spacing } } := by
  by_cases hh : s.lc.spacing.held = true
  · by_cases hc : 3 ≤ s.lc.spacing.count + 1
    · have e : spacingHeard s
          = lcKick { s with lc := { s.lc with spacing := { s.lc.spacing with count := 3, held := false } } } := by
        simp [spacingHeard, hh, hc]
      rw [e, lcKick_eq]
    · simp [spacingHeard, hh, hc]
  · simp [spacingHeard, hh]

/-- A heard frame changes nothing outside LC but the numbers drawn. -/
theorem heard_eq : heard s = { s with draws := (heard s).draws, lc := (heard s).lc } := by
  unfold heard
  rw [spacingHeard_eq]
  rfl

/-- A heard frame leaves the site clock, the claims list, the reassembly and the link's times. -/
theorem heard_lc_eq : (heard s).lc = { (heardPlain s).lc with
    queue := (heard s).lc.queue, countdown := (heard s).lc.countdown, tx := (heard s).lc.tx,
    gapMet := (heard s).lc.gapMet, spacing := (heard s).lc.spacing } := by
  unfold heard
  rw [spacingHeard_eq]

/-- A frame that is heard is passed on by its kind. -/
theorem exec_frameCommand_of_hears {hd : Header} {body : FrameBody} (h : Hears s hd body) :
    exec (frameCommand hd body) s = .next (passOn hd body (heard s)) := by
  have e : receiveFields hd body s = passOn hd body (heard s) := by
    simp only [receiveFields, h.receives, h.length, if_true, checkFrame, h.spare, h.source]
    rw [if_neg (by simp), if_neg (by simp), if_neg (by simp [markJudged, h.own])]
    rfl
  have l : exec (frameCommand hd body) s = live s (receiveFields hd body) := by cases body <;> rfl
  rw [l, live, if_pos h.released, e]

/-! ### Forward pulses (R89, R90) -/

/-- A forward pulse with a dispense open: the tracker, the window and the meter take it, SU sees the movement, and it
goes on to the HC alone for a prove and to JU, SU and HC for a billed dispense. -/
theorem exec_pulse_forward {h : Hose} {levelB : Bool} {d e : MuDispense} {g st : Nat} (hp : s.power = .released)
    (hj : judgeEdge (s.mu.get h) levelB = .forward) (hd : (s.mu.get h).dispense = some d)
    (hm : d.meter (s.cfg.params.hose.get h).pulseWeight (s.cfg.params.hose.get h).alpha = (g, st, e)) :
    exec (.pulse h levelB) s = .next (
      let u := { s with
        mu := s.mu.set h { s.mu.get h with
          rises := 0, falls := 0, edgeSeen := true, windowCount := satInc max16 (s.mu.get h).windowCount,
          dispense := some e },
        su := { s.su with lastMove := s.now } }
      if d.isProve then hosePulse h st u else billedPulse h d.std g st u) := by
  simp only [exec, execPulse, live, if_pos hp, risingA, hj, forwardPulse, meterMoved, State.updMu, Mu.afterEdge,
    Two.get_set_self, Two.set_set, hd, meteredPulse, hm]

/-! ### Window ends (R93, R96) -/

/-- A window within the band limits chooses its band, and the sample settles the temperature. -/
theorem MuDispense.windowEnds_band (d : MuDispense) {limits : Quad Nat} {rate band : Nat} (sample : Option Int)
    (hb : bandFor limits rate = some band) : d.windowEnds limits rate sample = { d with
      band := band, consecutive := 0, theta := sample.getD d.theta, held := d.held || sample.isNone } := by
  cases sample <;>
    simp [MuDispense.windowEnds, MuDispense.chooseBand, hb, MuDispense.sampled, MuDispense.forcedSlowDue]

/-- An overspeed window counts, and the third in a row is the one that reports. -/
theorem MuDispense.windowEnds_overspeed (d : MuDispense) {limits : Quad Nat} {rate : Nat} (sample : Option Int)
    (hb : bandFor limits rate = none) : d.windowEnds limits rate sample = { d with
      band := 4, overspeed := satInc max16 d.overspeed, consecutive := satInc 3 d.consecutive,
      theta := sample.getD d.theta, held := d.held || sample.isNone,
      forcedSlow := d.forcedSlow || decide (satInc 3 d.consecutive = 3) } := by
  cases sample <;> cases hf : d.forcedSlow <;>
    simp [MuDispense.windowEnds, MuDispense.chooseBand, hb, MuDispense.sampled, MuDispense.forcedSlowDue, hf]

/-! ### The panel (R138, R214) -/

/-- A sub-address above 255 has the value of 255, which is none. -/
theorem inspectValue_min (n : Nat) : inspectValue s (min 255 n) = inspectValue s n := by
  rcases Nat.le_total n 255 with h | h
  · rw [Nat.min_eq_right h]
  · rw [Nat.min_eq_left h]
    have past : ∀ m, 255 ≤ m → inspectValue s m = notAValue := fun m hm => by
      unfold inspectValue
      rw [if_neg (by omega), if_neg (by omega), if_neg (by omega), if_neg (by omega), if_neg (by omega)]
    rw [past 255 (Nat.le_refl _), past n h]

/-- Sending pages one after the other sends each of them, keeps the lines sent before, and changes the Panel Port
alone. -/
theorem sendPages_sends (pages : List Byte) : ∀ s : State,
    (∀ p ∈ pages, ∃ n, panelLine n (.diagnosticPage p (diagnostics s))
      ∈ (pages.foldl (fun u page => sendPage page u) s).pp.sent) ∧
    (∀ line ∈ s.pp.sent, line ∈ (pages.foldl (fun u page => sendPage page u) s).pp.sent) ∧
    pages.foldl (fun u page => sendPage page u) s
      = { s with pp := (pages.foldl (fun u page => sendPage page u) s).pp } := by
  induction pages with
  | nil => exact fun s => ⟨by simp, fun _ h => h, rfl⟩
  | cons a rest ih =>
    intro s
    obtain ⟨h1, h2, h3⟩ := ih (sendPage a s)
    have here : panelLine s.pp.outNumber (.diagnosticPage a (diagnostics s)) ∈ (sendPage a s).pp.sent := by
      simp [sendPage, sendOut]
    have same : diagnostics (sendPage a s) = diagnostics s := rfl
    refine ⟨fun p hp => ?_, fun line hl => h2 line (by simp [sendPage, sendOut, hl]), h3⟩
    rcases List.mem_cons.1 hp with rfl | hp
    · exact ⟨_, h2 _ here⟩
    · exact same ▸ h1 p hp

end Sys2Proof.Machine
end

