-- ==== Sys2Proof/Laws/Formats.lean ====
section
/-! SUPPORT. The byte layouts: lengths, and numbers read back from the bytes that stand for them. -/

namespace Sys2Proof.Machine

@[simp] theorem be_length (k v : Nat) : (be k v).length = k := by
  induction k with
  | zero => rfl
  | succ k ih => simp [be, ih]

/-- Bytes behind others read as a number of one more place for each. -/
theorem ofBe_from (bytes : List Byte) (acc : Nat) :
    bytes.foldl (fun acc b => acc * 256 + b.toNat) acc = acc * 256 ^ bytes.length + ofBe bytes := by
  induction bytes generalizing acc with
  | nil => simp [ofBe]
  | cons b rest ih =>
    unfold ofBe
    simp only [List.foldl_cons, List.length_cons, Nat.zero_mul, Nat.zero_add]
    rw [ih, ih b.toNat, pow_succ]; ring

theorem ofBe_cons (b : Byte) (rest : List Byte) : ofBe (b :: rest) = b.toNat * 256 ^ rest.length + ofBe rest := by
  show List.foldl _ _ rest = _
  rw [ofBe_from]; simp

/-- A number's bytes stand for its low places. -/
@[simp] theorem ofBe_be (k v : Nat) : ofBe (be k v) = v % 256 ^ k := by
  induction k with
  | zero => simp [be, ofBe, Nat.mod_one]
  | succ k ih =>
    have h : v % (256 ^ k * 256) = v % 256 ^ k + 256 ^ k * (v / 256 ^ k % 256) := Nat.mod_mul
    rw [be, ofBe_cons, ih, be_length, BitVec.toNat_ofNat, pow_succ 256 k, h, Nat.mul_comm, Nat.add_comm]

theorem field_zero (k : Nat) (a rest : List Byte) (ha : a.length = k) : field (a ++ rest) 0 k = ofBe a := by
  unfold field
  rw [List.drop_zero, List.take_append_of_le_length ha.ge, List.take_of_length_le ha.le]

/-- A field behind a part of known length. -/
theorem field_skip (p rest : List Byte) (n k : Nat) : field (p ++ rest) (p.length + n) k = field rest n k := by
  unfold field
  rw [← List.drop_drop, List.drop_left]

@[simp] theorem wireDrawBytes_length (d : WireDraw) : (wireDrawBytes d).length = 8 := by
  simp [wireDrawBytes]

@[simp] theorem priceEntryBytes_length (e : PriceEntry) : (priceEntryBytes e).length = 7 := by
  simp [priceEntryBytes]

@[simp] theorem withCheck_length (bytes : List Byte) : (withCheck bytes).length = bytes.length + 2 := by
  simp [withCheck]

@[simp] theorem headerBytes_length (hd : Header) (kind : Nat) : (headerBytes hd kind).length = 2 := rfl

/-- A frame has its header, its body and its check value. -/
@[simp] theorem frameBytes_length (hd : Header) (body : FrameBody) :
    (frameBytes hd body).length = (bodyBytes body).length + 4 := by
  simp [frameBytes]; omega

/-- The check value is sixteen bits, so its two bytes give it back. -/
theorem checkValue_field (bytes rest : List Byte) :
    field (be 2 (checkValue bytes).toNat ++ rest) 0 2 = (checkValue bytes).toNat := by
  rw [field_zero 2 _ _ (be_length _ _), ofBe_be]
  exact Nat.mod_eq_of_lt (checkValue bytes).isLt

/-- A field right at the front. -/
theorem field_be (k v : Nat) (rest : List Byte) : field (be k v ++ rest) 0 k = v % 256 ^ k := by
  rw [field_zero k _ _ (be_length k v), ofBe_be]

theorem field_be_end (k v : Nat) : field (be k v) 0 k = v % 256 ^ k := by
  have := field_be k v []
  rwa [List.append_nil] at this

/-- A field past bytes written as a number. -/
theorem field_past (j v : Nat) (rest : List Byte) (n k : Nat) :
    field (be j v ++ rest) (j + n) k = field rest n k := by
  have := field_skip (be j v) rest n k
  rwa [be_length] at this

theorem field_past_cons (b : Byte) (rest : List Byte) (n k : Nat) : field (b :: rest) (1 + n) k = field rest n k := by
  unfold field
  rw [Nat.add_comm, List.drop_succ_cons]

/-- A bit vector read back from its bytes. -/
theorem ofNat_toNat_mod {w k : Nat} (x : BitVec w) (hk : w ≤ 8 * k) :
    BitVec.ofNat w (x.toNat % 256 ^ k) = x := by
  have h : x.toNat < 256 ^ k := by
    have : (256 : Nat) ^ k = 2 ^ (8 * k) := by rw [pow_mul]; norm_num
    rw [this]
    exact Nat.lt_of_lt_of_le x.isLt (Nat.pow_le_pow_right (by norm_num) hk)
  rw [Nat.mod_eq_of_lt h]; simp

theorem wireDraw_byte (x y : Bool) (b : BitVec 6) :
    (BitVec.ofNat 8 (bit x 7 + bit y 6 + b.toNat)).getLsbD 7 = x ∧
    (BitVec.ofNat 8 (bit x 7 + bit y 6 + b.toNat)).getLsbD 6 = y ∧
    (BitVec.ofNat 8 (bit x 7 + bit y 6 + b.toNat)).setWidth 6 = b := by
  revert b; cases x <;> cases y <;> decide

/-- A draw reads back from its eight bytes. -/
@[simp] theorem wireDrawOf_bytes (d : WireDraw) : wireDrawOf (wireDrawBytes d) = d := by
  obtain ⟨x, y, b, time, volume⟩ := d
  obtain ⟨h1, h2, h3⟩ := wireDraw_byte x y b
  have ht : ∀ z : Byte, field (z :: (be 4 time.toNat ++ be 3 volume.toNat)) 1 4 = time.toNat % 256 ^ 4 := by
    intro z; rw [show (1:Nat) = 1 + 0 from rfl, field_past_cons, field_be]
  have hv : ∀ z : Byte, field (z :: (be 4 time.toNat ++ be 3 volume.toNat)) 5 3 = volume.toNat % 256 ^ 3 := by
    intro z; rw [show (5:Nat) = 1 + (4 + 0) from rfl, field_past_cons, field_past, field_be_end]
  unfold wireDrawOf wireDrawBytes
  simp only [List.getD_cons_zero, h1, h2, h3, ht, hv]
  rw [ofNat_toNat_mod time (by norm_num), ofNat_toNat_mod volume (by norm_num)]

theorem header_byte0 {k : Nat} (hk : k ≤ 9) (x y : Bool) (b : BitVec 2) :
    (BitVec.ofNat 8 (k * 16 + bit x 3 + bit y 2 + b.toNat)).toNat / 16 = k ∧
    (BitVec.ofNat 8 (k * 16 + bit x 3 + bit y 2 + b.toNat)).getLsbD 3 = x ∧
    (BitVec.ofNat 8 (k * 16 + bit x 3 + bit y 2 + b.toNat)).getLsbD 2 = y ∧
    (BitVec.ofNat 8 (k * 16 + bit x 3 + bit y 2 + b.toNat)).setWidth 2 = b := by
  revert b
  interval_cases k <;> cases x <;> cases y <;> decide

theorem header_byte1 (a : BitVec 2) (b : BitVec 6) :
    BitVec.ofNat 2 ((BitVec.ofNat 8 (a.toNat * 64 + b.toNat)).toNat / 64) = a ∧
    (BitVec.ofNat 8 (a.toNat * 64 + b.toNat)).setWidth 6 = b := by
  revert a b; decide

theorem kindCode_le (body : FrameBody) : kindCode body ≤ 9 := by cases body <;> simp [kindCode]

/-- The lengths of the fields are lengths the kind allows. -/
theorem allowed_of_fields {hd : Header} {body : FrameBody} (h : fieldsLengthOk hd body = true) :
    bodyLengthAllowed (kindCode body) hd.beginFlag hd.endFlag (bodyBytes body).length = true := by
  cases body with
  | price i b =>
    obtain ⟨bf, ef, s0, s1, src⟩ := hd
    cases b <;> cases bf <;> cases ef <;>
      simp_all [fieldsLengthOk, bodyLengthAllowed, kindCode, bodyBytes, priceBodyBytes]
  | _ => exact h

theorem bodyBytes_length_le {hd : Header} {body : FrameBody} (h : fieldsLengthOk hd body = true) :
    (bodyBytes body).length ≤ 24 := by
  have := allowed_of_fields h
  cases body with
  | price i b => cases b <;> simp [bodyBytes, priceBodyBytes]
  | answer m ds =>
    simp only [bodyLengthAllowed, kindCode, Bool.or_eq_true, beq_iff_eq] at this
    omega
  | record n i c =>
    simp only [bodyLengthAllowed, kindCode, Bool.and_eq_true, decide_eq_true_eq] at this
    omega
  | _ => simp [bodyBytes]

/-- Two, three and four bytes give their number back. -/
theorem half_back (x : BitVec 16) : BitVec.ofNat 16 (ofBe (be 2 x.toNat)) = x := by
  rw [ofBe_be, ofNat_toNat_mod x (by norm_num)]

theorem three_back (x : BitVec 24) : BitVec.ofNat 24 (ofBe (be 3 x.toNat)) = x := by
  rw [ofBe_be, ofNat_toNat_mod x (by norm_num)]

theorem word_back (x : BitVec 32) : BitVec.ofNat 32 (ofBe (be 4 x.toNat)) = x := by
  rw [ofBe_be, ofNat_toNat_mod x (by norm_num)]

/-- A body reads back from its bytes. -/
theorem bodyOf_bytes {hd : Header} {body : FrameBody} (h : fieldsLengthOk hd body = true) :
    bodyOf (kindCode body) hd.beginFlag hd.endFlag (bodyBytes body) = some body := by
  cases body with
  | hello n p =>
    show some (FrameBody.hello (BitVec.ofNat 16 (ofBe (be 2 n.toNat))) p) = _
    rw [half_back]
  | status b =>
    show some (FrameBody.status
      { startNumber := BitVec.ofNat 16 (ofBe (be 2 b.startNumber.toNat)),
        stock := BitVec.ofNat 24 (ofBe (be 3 b.stock.toNat)),
        cover := BitVec.ofNat 16 (ofBe (be 2 b.cover.toNat)), claimFlag := b.claimFlag, position := b.position,
        uncollected := BitVec.ofNat 16 (ofBe (be 2 b.uncollected.toNat)),
        highestClosed := BitVec.ofNat 32 (ofBe (be 4 b.highestClosed.toNat)) }) = _
    rw [half_back, half_back, half_back, three_back, word_back]
  | draw m d =>
    show some (FrameBody.draw (BitVec.ofNat 24 (ofBe (be 3 m.toNat))) (wireDrawOf (wireDrawBytes d))) = _
    rw [three_back, wireDrawOf_bytes]
  | query m w =>
    show some (FrameBody.query (BitVec.ofNat 24 (ofBe (be 3 m.toNat))) w) = _
    rw [three_back]
  | answer m ds =>
    have hl := allowed_of_fields h
    simp only [bodyLengthAllowed, kindCode, bodyBytes, List.length_append, be_length, Bool.or_eq_true,
      beq_iff_eq] at hl
    match ds, hl with
    | [], hl => simp at hl
    | [d], _ =>
      show some (FrameBody.answer (BitVec.ofNat 24 (ofBe (be 3 m.toNat))) [wireDrawOf (wireDrawBytes d)]) = _
      rw [three_back, wireDrawOf_bytes]
    | [d, e], _ =>
      show some (FrameBody.answer (BitVec.ofNat 24 (ofBe (be 3 m.toNat)))
        [wireDrawOf (wireDrawBytes d), wireDrawOf (wireDrawBytes e)]) = _
      rw [three_back, wireDrawOf_bytes, wireDrawOf_bytes]
    | d :: e :: f :: rest, hl => simp at hl; omega
  | record n i c =>
    show some (FrameBody.record (BitVec.ofNat 32 (ofBe (be 4 n.toNat))) i c) = _
    rw [word_back]
  | mark t n time =>
    show some (FrameBody.mark t (BitVec.ofNat 32 (ofBe (be 4 n.toNat))) (BitVec.ofNat 32 (ofBe (be 4 time.toNat)))) = _
    rw [word_back, word_back]
  | price i b =>
    obtain ⟨bf, ef, s0, s1, src⟩ := hd
    cases b with
    | begins n t c =>
      have : bf = true := h
      subst this
      show some (FrameBody.price i (.begins (BitVec.ofNat 16 (ofBe (be 2 n.toNat)))
        (BitVec.ofNat 32 (ofBe (be 4 t.toNat))) c)) = _
      rw [half_back, word_back]
    | entries e f =>
      have : bf = false ∧ ef = false := by simpa [fieldsLengthOk] using h
      obtain ⟨rfl, rfl⟩ := this
      show some (FrameBody.price i (.entries
        { low := BitVec.ofNat 16 (ofBe (be 2 e.low.toNat)), high := BitVec.ofNat 16 (ofBe (be 2 e.high.toNat)),
          price := BitVec.ofNat 24 (ofBe (be 3 e.price.toNat)) }
        { low := BitVec.ofNat 16 (ofBe (be 2 f.low.toNat)), high := BitVec.ofNat 16 (ofBe (be 2 f.high.toNat)),
          price := BitVec.ofNat 24 (ofBe (be 3 f.price.toNat)) })) = _
      simp only [half_back, three_back]
    | ends c =>
      have : bf = false ∧ ef = true := by simpa [fieldsLengthOk] using h
      obtain ⟨rfl, rfl⟩ := this
      show some (FrameBody.price i (.ends (BitVec.ofNat 16 (ofBe (be 2 c.toNat))))) = _
      rw [half_back]
  | delivery t n v time =>
    show some (FrameBody.delivery t (BitVec.ofNat 16 (ofBe (be 2 n.toNat))) (BitVec.ofNat 24 (ofBe (be 3 v.toNat)))
      (BitVec.ofNat 32 (ofBe (be 4 time.toNat)))) = _
    rw [half_back, three_back, word_back]

end Sys2Proof.Machine
end

