-- ==== Sys2Proof/Laws/Onward.lean ====
section
/-! SUPPORT. What every shared operation keeps (`Onward`), operation by operation: the link's channel and
queue, the store's requests, the stock and the journal. -/

namespace Sys2Proof.Machine

theorem Onward.refl (s : State) : Onward s s :=
  ⟨rfl, rfl, rfl, rfl, le_rfl, le_rfl, le_rfl, id, le_rfl, le_rfl, id, id, id, id, id, id, id, id, id⟩

theorem Onward.trans {s t u : State} (a : Onward s t) (b : Onward t u) : Onward s u :=
  ⟨b.pending.trans a.pending, b.power.trans a.power, b.cfg.trans a.cfg, b.start.trans a.start,
   a.now.trans b.now, a.draws.trans b.draws, a.clock.trans b.clock, b.sure ∘ a.sure,
   a.counter.trans b.counter, a.mark.trans b.mark, b.warned ∘ a.warned, b.fault ∘ a.fault,
   b.budget ∘ a.budget, b.queue ∘ a.queue, b.status ∘ a.status, b.entries ∘ a.entries,
   b.claims ∘ a.claims, b.digits ∘ a.digits, b.levels ∘ a.levels⟩

/-- A choice between two operations. -/
theorem Onward.ite {s t u : State} {p : Prop} [Decidable p] (a : Onward s t) (b : Onward s u) :
    Onward s (if p then t else u) := by split <;> assumption

/-! ### Updates -/

variable (s : State) (h : Hose)

theorem updHc_onward (f : Hc → Hc) : Onward s (s.updHc h f) := { Onward.refl s with }
theorem updMu_onward (f : Mu → Mu) : Onward s (s.updMu h f) := { Onward.refl s with }
theorem updTiu_onward (f : Tiu → Tiu) : Onward s (s.updTiu h f) := { Onward.refl s with }
theorem updSession_onward (f : Session → Session) : Onward s (s.updSession h f) := { Onward.refl s with }
theorem reach_onward (t : Nat) : Onward s (s.reach t) := { Onward.refl s with now := le_max_left _ _ }
theorem prompt_onward (p : Prompt) : Onward s (prompt p s) := { Onward.refl s with }

theorem atDue_onward (due : Option Nat) {f : State → State} (hf : ∀ t, Onward t (f t)) :
    Onward s (atDue due s f) := by
  cases due with
  | none => exact .refl s
  | some t => exact (reach_onward s t).trans (hf _)

/-! ### Store requests -/

theorem scKick_onward : Onward s (scKick s) := by
  unfold scKick
  split
  · refine { Onward.refl s with counter := ?_, mark := ?_ } <;>
    · simp only []
      split
      · unfold juPerform; split <;> exact le_rfl
      · exact le_rfl
  · exact .refl s

theorem scAsk_onward (r : Requester) : Onward s (scAsk r s) := by
  unfold scAsk
  split
  · exact .refl s
  · refine Onward.trans ?_ (scKick_onward _)
    exact { Onward.refl s with }

theorem askStock_onward : Onward s (askStock s) := by
  unfold askStock
  split
  · exact { Onward.refl s with }
  · exact scAsk_onward s _

theorem askBanks_onward : Onward s (askBanks s) := by
  unfold askBanks
  split
  · exact { Onward.refl s with }
  · exact scAsk_onward s _

theorem askJournal_onward : Onward s (askJournal s) := by
  unfold askJournal
  split
  · exact .refl s
  · exact scAsk_onward s _

/-! ### The channel and the queue -/

/-- A change of the journal that keeps its counter and mark from falling. -/
theorem ju_onward (ju : Ju) (hc : s.ju.counter ≤ ju.counter) (hm : s.ju.mark ≤ ju.mark) :
    Onward s { s with ju := ju } := { Onward.refl s with counter := hc, mark := hm }

theorem startTx_onward : Onward s (startTx s) := by
  unfold startTx
  split
  · exact .refl s
  · rename_i f rest hq
    refine { Onward.refl s with queue := fun hl => ?_, status := fun hl => ?_ }
    · rw [hq] at hl; simp only [List.length_cons] at hl; show rest.length ≤ 16; omega
    · rw [hq] at hl
      refine le_trans ?_ hl
      exact ((List.sublist_cons_self f rest).filter _).length_le

theorem lcKick_onward : Onward s (lcKick s) := by
  unfold lcKick
  split
  · split
    · exact .refl s
    · have h1 : ∀ c : Countdown, Onward s { s with draws := s.draws + 1, lc := { s.lc with countdown := some c } } :=
        fun c => { Onward.refl s with draws := Nat.le_succ _ }
      simp only []
      split
      · exact (h1 _).trans (startTx_onward _)
      · exact h1 _
  · exact .refl s

theorem insertByClass_perm (f : TxFrame) (q : List TxFrame) : (insertByClass f q).Perm (f :: q) := by
  induction q with
  | nil => exact .refl _
  | cons g rest ih =>
    unfold insertByClass
    split
    · exact .refl _
    · exact (ih.cons g).trans (.swap f g rest)

theorem statusFrames_perm {p q : List TxFrame} (hp : p.Perm q) :
    (statusFrames p).length = (statusFrames q).length := (hp.filter _).length_eq

/-- A frame placed on the way from `s` keeps the bounds when there was room for it, and when it is no STATUS or
none was waiting. -/
theorem placeFrame_onward {s u : State} (f : TxFrame) (hu : Onward s u)
    (hl : s.lc.queue.length ≤ 16 → u.lc.queue.length < 16)
    (hs : f.owner ≠ .status ∨ statusFrames u.lc.queue = []) : Onward s (placeFrame f u) := by
  refine Onward.trans ?_ (lcKick_onward _)
  refine { hu with queue := fun h1 => ?_, status := fun h1 => ?_ }
  · show (insertByClass f u.lc.queue).length ≤ 16
    rw [(insertByClass_perm f _).length_eq]; exact hl h1
  · show (statusFrames (insertByClass f u.lc.queue)).length ≤ 1
    rw [statusFrames_perm (insertByClass_perm f _)]
    rcases hs with hs | hs
    · have : statusFrames (f :: u.lc.queue) = statusFrames u.lc.queue := by simp [statusFrames, hs]
      rw [this]; exact hu.status h1
    · have : (statusFrames (f :: u.lc.queue)).length ≤ (statusFrames u.lc.queue).length + 1 := by
        unfold statusFrames
        rw [List.filter_cons]; split <;> simp
      rw [hs] at this; exact this

theorem removeOffer_onward (serial : Nat) : Onward s (removeOffer serial s) := by
  refine { Onward.refl s with queue := fun hl => ?_, status := fun hl => ?_ }
  · exact (List.filter_sublist.length_le).trans hl
  · exact ((List.filter_sublist.filter _).length_le).trans hl

theorem offerFrames_status (serial : Nat) (frames : List (List Byte)) :
    statusFrames (offerFrames serial frames) = [] := by
  unfold statusFrames offerFrames
  rw [List.filter_eq_nil_iff]
  intro f hf
  rw [List.mem_map] at hf
  obtain ⟨p, _, rfl⟩ := hf
  simp

theorem enqueueOffer_onward (serial : Nat) (frames : List (List Byte)) :
    Onward s (enqueueOffer serial frames s).2 := by
  unfold enqueueOffer
  split
  · rename_i hc
    refine Onward.trans ?_ (lcKick_onward _)
    refine { Onward.refl s with queue := fun _ => ?_, status := fun h1 => ?_ }
    · show (s.lc.queue ++ offerFrames serial frames).length ≤ 16
      have := hc.2
      simp only [List.length_append, offerFrames, List.length_map, List.length_zipIdx]; exact this
    · show (statusFrames (s.lc.queue ++ offerFrames serial frames)).length ≤ 1
      have := offerFrames_status serial frames
      unfold statusFrames at this h1 ⊢
      rw [List.filter_append, this, List.append_nil]; exact h1
  · exact .refl s

/-! ### Stock -/

theorem reevaluateClaim_onward : Onward s (reevaluateClaim s) := { Onward.refl s with }
theorem suIncrement_onward (std : Nat) : Onward s (suIncrement std s) := { Onward.refl s with }
theorem meterMoved_onward : Onward s (meterMoved s) := { Onward.refl s with }

theorem suAdjustment_onward (adj : Int) : Onward s (suAdjustment adj s) := by
  refine Onward.trans ?_ (askStock_onward _)
  exact { Onward.refl s with }

theorem adjustTaken_onward (delta : Int) : Onward s (adjustTaken delta s) := by
  refine Onward.trans (Onward.trans ?_ (askStock_onward _)) (reevaluateClaim_onward _)
  exact { Onward.refl s with }

theorem proveNone_onward : Onward s (proveNone s) :=
  { Onward.refl s with
    levels := fun hl => by
      show (if s.su.proveActive then _ else s.su : Su).history.length ≤ 10
      split <;> exact hl }

/-! ### The journal -/

theorem writeListAdd_onward (e : WriteEntry) : Onward s (writeListAdd e s) := by
  refine Onward.trans ?_ (askJournal_onward _)
  exact { Onward.refl s with }

theorem numberRecord_onward (body : RecBody) : Onward s (numberRecord body s) :=
  { Onward.refl s with counter := Nat.le_succ _ }

theorem takeRecord_onward (body : RecBody) : Onward s (takeRecord body s) :=
  (numberRecord_onward s body).trans (writeListAdd_onward _ _)

theorem requestRecord_onward (body : RecBody) : Onward s (requestRecord body s).2 := by
  unfold requestRecord
  split
  · exact .refl s
  · exact takeRecord_onward s body

theorem requesterTaken_onward (r : WaitReq) (n : Nat) : Onward s (requesterTaken r n s) := by
  cases r with
  | prove p => exact { Onward.refl s with }
  | adjust d sup => exact adjustTaken_onward s d
  | priceBook a b => exact { Onward.refl s with }

theorem requesterWaiting_onward (r : WaitReq) : Onward s (requesterWaiting r s) := by
  cases r <;> exact { Onward.refl s with }

theorem requesterDropped_onward (r : WaitReq) : Onward s (requesterDropped r s) := by
  cases r with
  | prove p => exact proveNone_onward s
  | adjust d sup => exact .refl s
  | priceBook a b => exact { Onward.refl s with }

theorem requestOrWait_onward (r : WaitReq) : Onward s (requestOrWait r s) := by
  unfold requestOrWait
  split
  · exact requesterDropped_onward s r
  · split
    · exact (takeRecord_onward s _).trans (requesterTaken_onward _ _ _)
    · refine Onward.trans ?_ (requesterWaiting_onward _ _)
      exact { Onward.refl s with }

theorem withdrawWaiting_onward (r : WaitReq) : Onward s (withdrawWaiting r s) := { Onward.refl s with }

theorem serveList_onward (l : List WaitReq) : Onward s (serveList l s) := by
  induction l generalizing s with
  | nil => exact .refl s
  | cons r rest ih =>
    unfold serveList
    split
    · refine Onward.trans ?_ (ih _)
      refine Onward.trans ?_ (requesterTaken_onward _ _ _)
      refine Onward.trans ?_ (takeRecord_onward _ _)
      exact { Onward.refl s with }
    · exact .refl s

theorem serveWaiting_onward : Onward s (serveWaiting s) := serveList_onward s _

theorem updOpenDispense_onward (f : DispenseRec → DispenseRec) : Onward s (updOpenDispense h f s) := by
  unfold updOpenDispense
  split <;> exact { Onward.refl s with }

theorem openRecord_onward (d : DispenseRec) : Onward s (openRecord d s) := by
  unfold openRecord
  split <;> exact { Onward.refl s with }

theorem recordIncrement_onward (gross std : Nat) : Onward s (recordIncrement h gross std s) := by
  unfold recordIncrement
  split
  · exact .refl s
  · exact { Onward.refl s with }
  · split
    · exact updOpenDispense_onward s h _
    · rename_i d _ _
      refine Onward.trans ?_ (writeListAdd_onward _ _)
      refine Onward.trans (numberRecord_onward s (.dispense (d.add gross std))) ?_
      exact { Onward.refl _ with }

theorem withdrawRecord_onward : Onward s (withdrawRecord h s) := by
  unfold withdrawRecord
  split
  · refine Onward.trans ?_ (serveWaiting_onward _)
    exact { Onward.refl s with }
  · exact { Onward.refl s with }

theorem closeRecord_onward (c : CloseFields) : Onward s (closeRecord h c s) := by
  unfold closeRecord
  split
  · refine Onward.trans ?_ (writeListAdd_onward _ _)
    exact { Onward.refl s with }
  · exact .refl s

theorem offerRecord_onward (r : JRec) : Onward s (offerRecord r s) := by
  unfold offerRecord
  simp only []
  split <;> rename_i s1 heq
  · have h1 : Onward s s1 := by
      have := enqueueOffer_onward s s.ju.serial (recordFrames (stationId s) r.number r.time r.sure r.body)
      rw [heq] at this; exact this
    refine h1.trans ?_
    exact { Onward.refl _ with }
  · have h1 : Onward s s1 := by
      have := enqueueOffer_onward s s.ju.serial (recordFrames (stationId s) r.number r.time r.sure r.body)
      rw [heq] at this; exact this
    refine h1.trans ?_
    exact { Onward.refl _ with }

theorem chooseOffer_onward : Onward s (chooseOffer s) := by
  unfold chooseOffer
  split
  · split
    · exact offerRecord_onward s _
    · exact .refl s
  · exact .refl s

theorem fragmentSent_onward (serial index fragments : Nat) :
    Onward s (fragmentSent serial index fragments s) := by
  unfold fragmentSent
  split
  · split
    · refine Onward.trans ?_ (chooseOffer_onward _)
      exact { Onward.refl s with }
    · exact .refl s
  · exact .refl s

theorem offerDiscarded_onward (serial : Nat) : Onward s (offerDiscarded serial s) := by
  unfold offerDiscarded
  split
  · split
    · exact { Onward.refl s with }
    · exact .refl s
  · exact .refl s

theorem takeMark_onward (m : Nat) : Onward s (takeMark m s) := by
  unfold takeMark
  split
  · exact .refl s
  · rename_i hm
    split
    · refine Onward.trans ?_ (chooseOffer_onward _)
      refine Onward.trans ?_ (writeListAdd_onward _ _)
      refine Onward.trans ?_ (serveWaiting_onward _)
      exact { Onward.refl s with mark := (Nat.le_of_lt (Nat.lt_of_not_le hm)) }
    · exact { Onward.refl s with }

/-- The newest offer of a queue has a frame in it, so taking it out makes room. -/
theorem removeOffer_shorter {serial : Nat} (hn : newestOffer s.lc.queue = some serial) :
    (removeOffer serial s).lc.queue.length < s.lc.queue.length := by
  have hm : serial ∈ s.lc.queue.filterMap TxFrame.offerSerial := List.mem_of_getLast? hn
  rw [List.mem_filterMap] at hm
  obtain ⟨f, hf, hs⟩ := hm
  show (s.lc.queue.filter (fun f => f.offerSerial != some serial)).length < _
  rw [List.length_filter_lt_length_iff_exists]
  exact ⟨f, hf, by simp [hs]⟩

theorem offerDiscarded_queue (serial : Nat) : (offerDiscarded serial s).lc.queue = s.lc.queue := by
  unfold offerDiscarded
  split
  · split <;> rfl
  · rfl

theorem enqueueFrame_onward (f : TxFrame) (hs : f.owner ≠ .status ∨ statusFrames s.lc.queue = []) :
    Onward s (enqueueFrame f s).2 := by
  unfold enqueueFrame
  split
  · exact .refl s
  · split
    · exact placeFrame_onward f (.refl s) (fun _ => ‹_›) hs
    · split
      · exact .refl s
      · rename_i hns
        split
        · exact .refl s
        · rename_i serial hn
          refine Onward.trans ?_ (chooseOffer_onward _)
          refine placeFrame_onward f ((removeOffer_onward s serial).trans (offerDiscarded_onward _ serial))
            (fun h1 => ?_) (.inl hns)
          rw [offerDiscarded_queue]
          exact Nat.lt_of_lt_of_le (removeOffer_shorter s hn) h1

theorem statusFrames_replace (bytes : List Byte) (q : List TxFrame) :
    (statusFrames (q.map (fun f => if f.owner = .status then { f with bytes := bytes } else f))).length
      = (statusFrames q).length := by
  induction q with
  | nil => rfl
  | cons f rest ih =>
    by_cases hf : f.owner = .status <;> simp_all [statusFrames]

theorem enqueueStatus_onward (bytes : List Byte) : Onward s (enqueueStatus bytes s) := by
  unfold enqueueStatus
  split
  · exact .refl s
  · split
    · refine { Onward.refl s with queue := fun h1 => ?_, status := fun h1 => ?_ }
      · show (s.lc.queue.map _).length ≤ 16
        rw [List.length_map]; exact h1
      · exact (statusFrames_replace bytes s.lc.queue).le.trans h1
    · rename_i hn
      refine enqueueFrame_onward s _ (.inr ?_)
      unfold statusFrames
      rw [List.filter_eq_nil_iff]
      intro f hf hst
      exact hn (List.any_eq_true.mpr ⟨f, hf, hst⟩)

theorem makeStatus_onward : Onward s (makeStatus s) := by
  unfold makeStatus
  refine Onward.trans ?_ (enqueueStatus_onward _ _)
  exact { Onward.refl s with }

end Sys2Proof.Machine
end

