-- ==== Sys2Proof/Laws/OnwardHose.lean ====
section
/-! SUPPORT. What every shared operation keeps (`Onward`), continued: the Machine Table, the meters, the tag
transactions, the price books, the hoses, proving, authorisation and stock checks. -/

namespace Sys2Proof.Machine

variable (s : State) (h : Hose)

/-! ### The Machine Table -/

theorem insertEntry_length (e : Entry) (l : List Entry) : (insertEntry e l).length = l.length + 1 := by
  induction l with
  | nil => rfl
  | cons x rest ih => unfold insertEntry; split <;> simp [ih]

theorem Mt.ensure_entries (mt : Mt) (m clock : Nat) (hl : mt.entries.length ≤ 48) :
    (mt.ensure m clock).entries.length ≤ 48 := by
  unfold Mt.ensure
  simp only []
  split
  · exact hl
  · rename_i hc
    rw [not_or] at hc
    show (insertEntry _ _).length ≤ 48
    rw [insertEntry_length]; omega

theorem Mt.touch_entries (mt : Mt) (m clock : Nat) (f : Entry → Entry) (hl : mt.entries.length ≤ 48) :
    (mt.touch m clock f).entries.length ≤ 48 := by
  show (List.map _ _).length ≤ 48
  rw [List.length_map]; exact mt.ensure_entries m clock hl

/-- A change of the Machine Table that keeps its size. -/
theorem touch_onward (m : Nat) (f : Entry → Entry) : Onward s { s with mt := s.mt.touch m s.lc.clock f } :=
  { Onward.refl s with entries := s.mt.touch_entries m _ f }

theorem mtUpd_onward (m : Nat) (f : Entry → Entry) : Onward s { s with mt := s.mt.upd m f } :=
  { Onward.refl s with entries := fun hl => by show (List.map _ _).length ≤ 48; rw [List.length_map]; exact hl }

theorem identify_onward (f : FixedPart) (hist : History) : Onward s (identify h f hist s) :=
  touch_onward s f.machine _

theorem release_onward (m : Nat) : Onward s (release h m s) := mtUpd_onward s m _

theorem ownClose_onward (m : Nat) (d : Draw) : Onward s (ownClose h m d s) := by
  unfold ownClose
  refine Onward.trans ?_ (release_onward _ h m)
  split
  · exact (touch_onward s m _).trans (enqueueFrame_onward _ _ (.inl (by simp [drawFrame])))
  · exact touch_onward s m _

theorem ageEntry_onward (m : Nat) : Onward s (ageEntry m s) := mtUpd_onward s m _
theorem setWait_onward (w : QueryWait) : Onward s (setWait h w s) := { Onward.refl s with }
theorem cancelWait_onward : Onward s (cancelWait h s) := setWait_onward s h _

theorem endWaitTable_onward (m : Nat) : Onward s (endWaitTable h m s) := by
  unfold endWaitTable
  refine Onward.trans ?_ (setWait_onward _ h _)
  exact .ite (mtUpd_onward s m _) (.refl s)

theorem startQuery_onward (m : Nat) : Onward s (startQuery h m s).2 := by
  unfold startQuery
  split
  · exact .refl s
  · have h0 : Onward s { s with mt := { s.mt with serial := s.mt.serial + 1 } } := { Onward.refl s with }
    have h1 := enqueueFrame_onward { s with mt := { s.mt with serial := s.mt.serial + 1 } }
      (queryFrame (stationId s) h s.mt.serial m (queryWindow m s)) (.inl (by simp [queryFrame]))
    simp only []
    split <;> rename_i s2 heq <;> rw [heq] at h1
    · exact (h0.trans h1).trans (setWait_onward _ h _)
    · exact (h0.trans h1).trans (endWaitTable_onward _ h m)

theorem queryRequest_onward (m : Nat) : Onward s (queryRequest h m s).2 := by
  unfold queryRequest
  split
  · exact startQuery_onward s h m
  · split
    · exact .refl s
    · exact (cancelWait_onward s h).trans (startQuery_onward _ h m)

theorem querySent_onward (id : Nat) : Onward s (querySent h id s) := by
  unfold querySent
  split
  · exact .ite (setWait_onward s h _) (.refl s)
  · exact .refl s

theorem heardDraw_onward (source m : Nat) (w : WireDraw) : Onward s (heardDraw source m w s) := by
  unfold heardDraw
  exact .ite (.refl s) (touch_onward s m _)

theorem heardAnswer_onward (source m : Nat) (ws : List WireDraw) : Onward s (heardAnswer source m ws s) := by
  unfold heardAnswer
  exact .ite (.refl s) (touch_onward s m _)

theorem heardQuery_onward (m window : Nat) : Onward s (heardQuery m window s) := by
  unfold heardQuery
  split
  · exact .refl s
  · split
    · exact .refl s
    · have h1 : ∀ own : List Draw, Onward s (if own.isEmpty then ageEntry m s
          else (enqueueFrame (answerFrame (stationId s) m own) (ageEntry m s)).2) := fun own =>
        .ite (ageEntry_onward s m)
          ((ageEntry_onward s m).trans (enqueueFrame_onward _ _ (.inl (by simp [answerFrame]))))
      exact h1 _

/-! ### Meters and tags -/

theorem muOpen_onward (isProve : Bool) : Onward s (muOpen h isProve s) := updMu_onward s h _

theorem muClose_onward : Onward s (muClose h s).2 := by
  unfold muClose
  split
  · dsimp only; exact updMu_onward s h _
  · simp only []
    split
    · dsimp only; exact updMu_onward s h _
    · exact ((updMu_onward s h _).trans (updOpenDispense_onward _ h _)).trans (suAdjustment_onward _ _)

theorem tagRequest_onward (who : TagRequester) (ask : TagAsk) : Onward s (tagRequest h who ask s).2 := by
  unfold tagRequest
  split
  · exact .refl s
  · dsimp only; exact updTiu_onward s h _

/-! ### Price books -/

theorem pbu_onward (p : Pbu) : Onward s { s with pbu := p } := { Onward.refl s with }

theorem setBank_onward (i : BankId) (x : Bank) : Onward s (setBank i x s) :=
  (pbu_onward s _).trans (askBanks_onward _)

theorem switchTest_onward : Onward s (switchTest s) := by
  unfold switchTest
  split
  · exact requestOrWait_onward s _
  · exact .refl s

theorem switchEnd_onward (good : Bool) : Onward s (switchEnd good s) := by
  unfold switchEnd
  split
  · exact (pbu_onward s _).trans (askBanks_onward _)
  · exact pbu_onward s _

theorem withdrawSwitch_onward : Onward s (withdrawSwitch s) := by
  unfold withdrawSwitch
  exact .ite ((pbu_onward s _).trans (withdrawWaiting_onward _ _)) (.refl s)

theorem bookBegin_onward (number effective count : Nat) : Onward s (bookBegin number effective count s) := by
  unfold bookBegin
  split
  · exact ((withdrawSwitch_onward s).trans (pbu_onward _ _)).trans (setBank_onward _ _ _)
  · exact pbu_onward s _

theorem bookEntries_onward (e f : PriceEntry) : Onward s (bookEntries e f s) := pbu_onward s _

theorem loadFails_onward (i : BankId) : Onward s (loadFails i s) :=
  (pbu_onward s _).trans (setBank_onward _ _ _)

theorem bookEnd_onward (crc : Half) : Onward s (bookEnd crc s) := by
  unfold bookEnd
  split
  · exact .refl s
  · split
    · split
      · exact ((pbu_onward s _).trans (setBank_onward _ _ _)).trans (switchTest_onward _)
      · exact loadFails_onward s _
    · exact loadFails_onward s _

theorem bookAbandoned_onward : Onward s (bookAbandoned s) := by
  unfold bookAbandoned
  split
  · exact .refl s
  · exact loadFails_onward s _

/-! ### Hoses and the pump -/

theorem openStage_onward : Onward s (openStage h s) := by
  unfold openStage
  exact updHc_onward s h _
theorem stageCompare_onward : Onward s (stageCompare h s) := updHc_onward s h _
theorem forcedSlow_onward : Onward s (forcedSlow h s) := updHc_onward s h _

theorem joinPump_onward : Onward s (joinPump h s) := (updHc_onward s h _).trans (openStage_onward _ h)

/-- A change of the pump that keeps the budget level. -/
theorem pump_onward (p : Pump) (hp : s.pump.level ≤ 6 → p.level ≤ 6) : Onward s { s with pump := p } :=
  { Onward.refl s with budget := hp }

theorem joinHeld_onward : Onward s (joinHeld s) := by
  unfold joinHeld
  refine Onward.trans ?_ (.ite (joinPump_onward _ .b) (.refl _))
  refine Onward.trans ?_ (.ite (joinPump_onward _ .a) (.refl _))
  exact pump_onward s _ id

theorem startPump_onward (hl : s.pump.level < 6) : Onward s (startPump s) :=
  pump_onward s _ (fun _ => hl)

theorem pumpRequest_onward : Onward s (pumpRequest h s) := by
  unfold pumpRequest
  split
  · exact .refl s
  · split
    · exact (joinPump_onward s h).trans (joinHeld_onward _)
    · refine Onward.trans (Onward.trans ?_ (joinPump_onward _ h)) (joinHeld_onward _)
      exact pump_onward s _ id
    · split
      · exact ((startPump_onward s ‹_›).trans (joinPump_onward _ h)).trans (joinHeld_onward _)
      · exact pump_onward s _ id

theorem leaveWaiting_onward : Onward s (leaveWaiting h s) := pump_onward s _ id

theorem pumpSettle_onward : Onward s (pumpSettle s) := by
  unfold pumpSettle
  exact .ite (pump_onward s _ id) (.refl s)

theorem budgetFalls_onward (due : Nat) : Onward s (budgetFalls due s) := by
  unfold budgetFalls
  have h1 : ∀ p : Pump, p.level = s.pump.level - 1 → Onward s { s with pump := p } :=
    fun p hp => pump_onward s p (fun hl => by omega)
  simp only []
  split
  · rename_i hc
    refine Onward.trans (h1 _ rfl) (Onward.trans (startPump_onward _ ?_) (joinHeld_onward _))
    exact hc.2.1
  · exact h1 _ rfl

theorem sessionNone_onward : Onward s (sessionNone h s) := updSession_onward s h _

theorem closeEnded_onward : Onward s (closeEnded h s) := by
  unfold closeEnded
  exact .ite ((ownClose_onward s h _ _).trans (updHc_onward _ h _)) (.refl s)

theorem enterWriting_onward (o : TagOutcome) : Onward s (enterWriting h o s) := by
  unfold enterWriting
  have h1 := (updHc_onward s h (fun hc =>
    { hc with state := .writing, tagOutcome := some o, tagStep := .none })).trans (pumpSettle_onward _)
  simp only []
  split
  · exact h1.trans (closeRecord_onward _ h _)
  · exact (h1.trans (withdrawRecord_onward _ h)).trans (closeEnded_onward _ h)

theorem decideTag_onward : Onward s (decideTag h s) := by
  unfold decideTag
  simp only []
  split
  · have h1 := tagRequest_onward s h .hc
      (.writeHistory ((s.hc.get h).machine.getD 0) (closeDraw (stationId s) (s.hc.get h)))
    split <;> rename_i s1 heq <;> rw [heq] at h1
    · exact h1.trans (updHc_onward _ h _)
    · exact h1.trans (enterWriting_onward _ h _)
  · exact enterWriting_onward s h _

theorem writeDecision_onward : Onward s (writeDecision h s) := by
  unfold writeDecision
  exact .ite (updHc_onward s h _) (decideTag_onward s h)

theorem takeSummary_onward : Onward s (takeSummary h s) := by
  unfold takeSummary
  refine Onward.trans ?_ (updHc_onward _ h _)
  exact (updHc_onward s h _).trans (muClose_onward _ h)

theorem closeFromDrain_onward : Onward s (closeFromDrain h s) :=
  (takeSummary_onward s h).trans (writeDecision_onward _ h)

theorem closeStraight_onward : Onward s (closeStraight h s) :=
  (takeSummary_onward s h).trans (enterWriting_onward _ h _)

theorem leaveAuthorised_onward (c : EndCause) : Onward s (leaveAuthorised h c s) := by
  unfold leaveAuthorised
  have h1 := ((updHc_onward s h (fun hc => hc.ends c)).trans (leaveWaiting_onward _ h)).trans
    (sessionNone_onward _ h)
  simp only []
  split
  · exact ((((h1.trans (muClose_onward _ h)).trans (withdrawRecord_onward _ h)).trans
      (release_onward _ h _)).trans (updHc_onward _ h _)).trans (pumpSettle_onward _)
  · exact h1.trans (closeStraight_onward _ h)

theorem endFlow_onward (c : EndCause) : Onward s (endFlow h c s) :=
  (updHc_onward s h _).trans (updOpenDispense_onward _ h _)

theorem endProveRun_onward (c : EndCause) : Onward s (endProveRun h c s) :=
  (updHc_onward s h _).trans (leaveWaiting_onward _ h)

theorem hoseEnd_onward (c : EndCause) : Onward s (hoseEnd h c s) := by
  unfold hoseEnd
  split
  · exact leaveAuthorised_onward s h c
  · exact endFlow_onward s h c
  · exact .ite (endProveRun_onward s h c) (.refl s)
  · exact .refl s

theorem grantHose_onward (limit : Nat) (binding : Binding) (m allowance : Nat) :
    Onward s (grantHose h limit binding m allowance s) :=
  ((updHc_onward s h _).trans (muOpen_onward _ h _)).trans (pumpRequest_onward _ h)

theorem newLimit_onward (limit : Nat) (binding : Binding) : Onward s (newLimit h limit binding s) :=
  (updHc_onward s h _).trans (stageCompare_onward _ h)

theorem probe_onward : Onward s (probe h s) := tagRequest_onward s h _ _

theorem firstPulse_onward : Onward s (firstPulse h s) :=
  ((updHc_onward s h _).trans (sessionNone_onward _ h)).trans (probe_onward _ h)

theorem pulseCompares_onward : Onward s (pulseCompares h s) := by
  unfold pulseCompares
  exact (stageCompare_onward s h).trans (.ite (hoseEnd_onward _ h _) (.refl _))

theorem hosePulse_onward (std : Nat) : Onward s (hosePulse h std s) := by
  unfold hosePulse
  simp only []
  split
  · exact .ite ((firstPulse_onward s h).trans (pulseCompares_onward _ h))
      (.ite (hoseEnd_onward s h _) (.refl s))
  · exact (updHc_onward s h _).trans (pulseCompares_onward _ h)
  · exact updHc_onward s h _
  · exact .ite ((updHc_onward s h _).trans (pulseCompares_onward _ h)) (updHc_onward s h _)
  · exact .refl s

theorem probeReport_onward : Onward s (probeReport h s) := by
  unfold probeReport
  simp only []
  split
  · exact (updHc_onward s h _).trans (.ite (hoseEnd_onward _ h _) (.refl _))
  · exact .ite ((updHc_onward s h _).trans (decideTag_onward _ h)) (.refl s)

theorem writeReport_onward (code : Completion) : Onward s (writeReport h code s) := by
  unfold writeReport
  exact .ite (enterWriting_onward s h _) (.refl s)

/-! ### Proving -/

theorem leaveProving_onward : Onward s (leaveProving h s) := by
  unfold leaveProving
  exact .ite (updHc_onward s h _) (.refl s)

theorem proveCancel_onward : Onward s (proveCancel s) := by
  unfold proveCancel
  refine Onward.trans ?_ (proveNone_onward _)
  split
  · exact leaveProving_onward s _
  · exact .refl s

theorem setProve_onward (p : Prove) : Onward s { s with prove := p } := { Onward.refl s with }

theorem proveOutcome_onward (o : ProveOutcome) (band : Option Nat) (oldF newF shownF : Nat) (vp : Option Nat) :
    Onward s (proveOutcome o band oldF newF shownF vp s) :=
  (((setProve_onward s _).trans (leaveProving_onward _ _)).trans (updHc_onward _ _ _)).trans
    (requestOrWait_onward _ _)

theorem proveAbandon_onward : Onward s (proveAbandon s) := by
  unfold proveAbandon
  exact .ite (proveOutcome_onward s _ _ _ _ _ _) (proveOutcome_onward s _ _ _ _ _ _)

theorem proveReading_onward (vp : Nat) : Onward s (proveReading vp s) := proveOutcome_onward s _ _ _ _ _ _

theorem proveRun_onward : Onward s (proveRun h s) := by
  unfold proveRun
  refine Onward.trans ?_ (pumpRequest_onward _ h)
  refine Onward.trans ?_ (updHc_onward _ h _)
  refine Onward.trans ?_ (muOpen_onward _ h true)
  exact { Onward.refl s with }

theorem proveReadyTest_onward : Onward s (proveReadyTest s) := by
  unfold proveReadyTest
  split
  · exact .ite (proveRun_onward s _) (.refl s)
  · exact .refl s

theorem proveHandOver_onward : Onward s (proveHandOver h s) :=
  (((muClose_onward s h).trans (setProve_onward _ _)).trans (updHc_onward _ h _)).trans (pumpSettle_onward _)

theorem proveClose_onward : Onward s (proveClose h s) := by
  unfold proveClose
  exact (proveHandOver_onward s h).trans
    (.ite (proveCancel_onward _) (.ite (proveAbandon_onward _) (.refl _)))

theorem proveKey_onward (supervisor : Nat) : Onward s (proveKey supervisor s) := by
  unfold proveKey
  exact .ite (prompt_onward s _) (.ite (prompt_onward s _) (.ite (prompt_onward s _) (setProve_onward s _)))

theorem proveHose_onward : Onward s (proveHose h s) := by
  unfold proveHose
  exact .ite (.refl s) (.ite ((setProve_onward s _).trans (updHc_onward _ h _)) (prompt_onward s _))

theorem proveEnter_onward (value : Nat) : Onward s (proveEnter value s) := by
  unfold proveEnter
  split
  · exact .ite (prompt_onward s _) (.ite (prompt_onward s _)
      ((setProve_onward s _).trans (proveReadyTest_onward _)))
  · exact .ite (prompt_onward s _) (.ite (prompt_onward s _)
      ((setProve_onward s _).trans (proveReadyTest_onward _)))
  · exact .ite (prompt_onward s _) (.ite (prompt_onward s _) (proveReading_onward s value))
  · exact .refl s

theorem proveClear_onward : Onward s (proveClear s) := by
  unfold proveClear
  split
  · exact proveCancel_onward s
  · exact proveCancel_onward s
  · exact proveAbandon_onward s
  · exact .refl s

theorem factorNotStored_onward : Onward s (factorNotStored h s) := updHc_onward s h _

theorem askFactor_onward : Onward s (askFactor s) := (setProve_onward s _).trans (scAsk_onward _ _)

theorem proveRecordEnd_onward (n : Nat) (good : Bool) : Onward s (proveRecordEnd n good s) := by
  unfold proveRecordEnd
  exact .ite (.ite ((factorNotStored_onward s _).trans (proveNone_onward _))
    (.ite (askFactor_onward s) (proveNone_onward s))) (.refl s)

theorem proveFactorEnd_onward (good : Bool) : Onward s (proveFactorEnd good s) := by
  unfold proveFactorEnd
  split
  · exact .refl s
  · rename_i w _
    have h1 := setProve_onward s { s.prove with factorWrite := none }
    have h2 := h1.trans (.ite (p := good = true) (updMu_onward _ w.hose
      (fun mu => { mu with table := mu.table.set w.band w.newF })) (factorNotStored_onward _ w.hose))
    exact h2.trans (.ite (proveNone_onward _) (.refl _))

theorem proveWarned_onward : Onward s (proveWarned s) := by
  unfold proveWarned
  split <;> first | exact .refl s | exact proveNone_onward s | exact proveCancel_onward s

/-! ### Authorisation -/

theorem releaseHeld_onward : Onward s (releaseHeld h s) := by
  unfold releaseHeld
  split
  · exact release_onward s h _
  · exact .refl s

theorem takePending_onward : Onward s (takePending h s) := { Onward.refl s with }

theorem refusalRecord_onward (r : RefusalReason) (machine operator : Option Nat) :
    Onward s (refusalRecord h r machine operator s) := by
  unfold refusalRecord
  exact .ite (requestRecord_onward s _) (.refl s)

theorem refuse_onward (r : RefusalReason) : Onward s (refuse h r s) :=
  ((((takePending_onward s h).trans (releaseHeld_onward _ h)).trans (refusalRecord_onward _ h _ _ _)).trans
    (updHc_onward _ h _)).trans (sessionNone_onward _ h)

theorem endSession_onward : Onward s (endSession h s) := by
  have h1 : Onward s (sessionNone h ((releaseHeld h (cancelWait h s)).updHc h (fun hc =>
      { hc with state := restState hc.nozzleOut }))) :=
    (((cancelWait_onward s h).trans (releaseHeld_onward _ h)).trans (updHc_onward _ h _)).trans
      (sessionNone_onward _ h)
  unfold endSession
  split <;> first | exact h1 | exact .refl s

theorem grantSession_onward (f : FixedPart) (t : Terms) (best : Binding × Nat) :
    Onward s (grantSession h f t best s) :=
  (((takePending_onward s h).trans (updSession_onward _ h _)).trans (openRecord_onward _ _)).trans
    (grantHose_onward _ h _ _ _ _)

theorem toGrant_onward : Onward s (toGrant h s) := by
  unfold toGrant
  split
  · exact .refl s
  · split
    · exact refuse_onward s h _
    · exact (ageEntry_onward s _).trans (.ite (refuse_onward _ h _) (grantSession_onward _ h _ _ _))

theorem grantBlind_onward (isBlind : Bool) : Onward s (grantBlind h isBlind s) :=
  (updSession_onward s h _).trans (toGrant_onward _ h)

theorem waitEnded_onward (freshSet : Bool) : Onward s (waitEnded h freshSet s) := by
  unfold waitEnded
  exact .ite (grantBlind_onward s h _) (.refl s)

theorem endWait_onward (m : Nat) : Onward s (endWait h m s) :=
  (endWaitTable_onward s h m).trans (waitEnded_onward _ h _)

theorem queryDiscarded_onward (id : Nat) : Onward s (queryDiscarded h id s) := by
  unfold queryDiscarded
  split
  · exact .ite (endWait_onward s h _) (.refl s)
  · exact .refl s

theorem queryDecision_onward (f : FixedPart) : Onward s (queryDecision h f s) := by
  unfold queryDecision
  split
  · split
    · exact grantBlind_onward s h _
    · have h1 := queryRequest_onward s h f.machine
      split <;> rename_i s1 heq <;> rw [heq] at h1
      · exact h1.trans (grantBlind_onward _ h _)
      · exact h1.trans (updHc_onward _ h _)
      · exact (h1.trans (updHc_onward _ h _)).trans (waitEnded_onward _ h _)
  · exact grantBlind_onward s h _

theorem afterKey_onward : Onward s (afterKey h s) := by
  unfold afterKey
  split
  · exact .refl s
  · split
    · exact refuse_onward s h _
    · exact queryDecision_onward s h _

theorem checkKey_onward (f : FixedPart) : Onward s (checkKey h f s) := by
  unfold checkKey
  exact .ite ((updSession_onward s h _).trans (updHc_onward _ h _)) (afterKey_onward s h)

theorem identification_onward (r : TagRecord) : Onward s (identification h r s) := by
  unfold identification
  refine Onward.trans ?_ (updSession_onward _ h _)
  exact identify_onward s h _ _

theorem takeTag_onward (r : TagRecord) : Onward s (takeTag h r s) := by
  unfold takeTag
  have h1 := updSession_onward s h (fun se => { se with fixed := some r.fixed, nextRead := none })
  simp only []
  split
  · have h2 := h1.trans (identification_onward _ h r)
    split
    · exact h2.trans (refuse_onward _ h _)
    · exact h2.trans (checkKey_onward _ h _)
  · exact h1.trans (refuse_onward _ h _)

theorem readReport_onward (serial : Nat) (code : Completion) : Onward s (readReport h serial code s) := by
  unfold readReport
  split
  · split
    · exact takeTag_onward s h _
    · exact .refl s
  · exact .refl s

theorem requestRead_onward : Onward s (requestRead h s) := tagRequest_onward s h _ _

theorem startSession_onward : Onward s (startSession h s) :=
  (updSession_onward s h _).trans (requestRead_onward _ h)

theorem keyForHose_onward : Onward s (keyForHose h s) := by
  unfold keyForHose
  exact .ite (afterKey_onward s h) (.refl s)

theorem presetAfterGrant_onward (value : Nat) : Onward s (presetAfterGrant h value s) := by
  unfold presetAfterGrant
  split
  · exact .refl s
  · exact ((updSession_onward s h _).trans (updOpenDispense_onward _ h _)).trans (newLimit_onward _ h _ _)

/-- A change of AU that keeps the preset entry short. -/
theorem au_onward (a : Au) (ha : s.au.digits.length ≤ 6 → a.digits.length ≤ 6) : Onward s { s with au := a } :=
  { Onward.refl s with digits := ha }

theorem presetValue_onward (value : Nat) : Onward s (presetValue h value s) := by
  unfold presetValue
  split <;>
    first | exact au_onward s _ id | exact presetAfterGrant_onward s h value | exact prompt_onward s _

/-! ### The gauge, stock checks and deliveries -/

/-- A change of SU that keeps the level history short. -/
theorem su_onward (u : Su) (hu : s.su.history.length ≤ 10 → u.history.length ≤ 10) : Onward s { s with su := u } :=
  { Onward.refl s with levels := hu }

theorem addLevel_length (level : Nat) (history : List Nat) : (addLevel level history).length ≤ 10 := by
  unfold addLevel
  simp only [List.length_drop, List.length_append, List.length_cons, List.length_nil]
  omega

theorem takeReading_onward (level : Nat) (temperature : Int) : Onward s (takeReading level temperature s) := by
  unfold takeReading
  exact .ite (su_onward s _ (fun _ => addLevel_length _ _)) (su_onward s _ (fun _ => addLevel_length _ _))

theorem gaugeFails_onward : Onward s (gaugeFails s) := su_onward s _ (fun _ => Nat.zero_le _)

theorem askStockIf_onward (changed : Bool) : Onward s (askStockIf changed s) := by
  unfold askStockIf
  exact .ite (askStock_onward s) (.refl s)

theorem stockCheck_onward : Onward s (stockCheck s) := by
  unfold stockCheck
  simp only []
  generalize hr : requestRecord _ s = r
  have h1 : Onward s r.2 := by rw [← hr]; exact requestRecord_onward s _
  obtain ⟨n, s1⟩ := r
  cases n with
  | none => exact Onward.trans h1 (su_onward s1 _ id)
  | some n =>
    refine Onward.trans ?_ (askStockIf_onward _ _)
    exact Onward.trans h1 (su_onward s1 _ id)

theorem considerCheck_onward : Onward s (considerCheck s) := by
  unfold considerCheck
  exact .ite (stockCheck_onward s) (.refl s)

theorem ackKey_onward : Onward s (ackKey s) := by
  unfold ackKey
  refine .ite (prompt_onward s _) (.ite (Onward.trans ?_ (askStock_onward _)) (prompt_onward s _))
  exact su_onward s _ id

theorem adoptKey_onward (supervisor : Nat) : Onward s (adoptKey supervisor s) := by
  unfold adoptKey
  exact .ite (prompt_onward s _) (.ite (requestOrWait_onward s _) (prompt_onward s _))

theorem acceptDelivery_onward (source number volume time : Nat) (full : Bool) :
    Onward s (acceptDelivery source number volume time full s) := by
  refine Onward.trans (Onward.trans ?_ (reevaluateClaim_onward _)) (askStock_onward _)
  exact su_onward s _ id

theorem delivery_onward (source number volume time : Nat) :
    Onward s (delivery source number volume time s) := by
  unfold delivery
  split
  · exact su_onward s _ id
  · split
    · exact su_onward s _ id
    · simp only []
      generalize hr : requestRecord _ s = r
      have h1 : Onward s r.2 := by rw [← hr]; exact requestRecord_onward s _
      obtain ⟨n, s1⟩ := r
      cases n with
      | none => exact Onward.trans h1 (su_onward s1 _ id)
      | some n => exact Onward.trans h1 (acceptDelivery_onward s1 _ _ _ _ _)

end Sys2Proof.Machine
end

