-- ==== Sys2Proof/Laws/OnwardCommands.lean ====
section
/-! SUPPORT. What every command but the supply's keeps (`Onward`): frames, the reader heads, the meters, the
panel, store writes, the link, the hoses and the supply's warning. -/

namespace Sys2Proof.Machine

variable (s : State) (h : Hose)

/-- A change of LC that keeps the start number, the clock, the queue and the claims list within bounds. -/
theorem lc_onward (lc : Lc) (h1 : lc.startNumber = s.lc.startNumber) (h2 : s.lc.clock ≤ lc.clock)
    (h3 : s.lc.sure = true → lc.sure = true) (h4 : lc.queue = s.lc.queue)
    (h5 : s.lc.claims.length ≤ 16 → lc.claims.length ≤ 16) : Onward s { s with lc := lc } :=
  { Onward.refl s with
    start := h1, clock := h2, sure := h3, claims := h5,
    queue := by intro hq; show lc.queue.length ≤ 16; rw [h4]; exact hq
    status := by intro hq; show (statusFrames lc.queue).length ≤ 1; rw [h4]; exact hq }

/-- A change of LC that touches none of what `Onward` speaks of. -/
theorem lcPlain_onward (lc : Lc) (h1 : lc.startNumber = s.lc.startNumber) (h2 : lc.clock = s.lc.clock)
    (h3 : lc.sure = s.lc.sure) (h4 : lc.queue = s.lc.queue) (h5 : lc.claims = s.lc.claims) :
    Onward s { s with lc := lc } :=
  lc_onward s lc h1 h2.ge (fun hs => h3.trans hs) h4 (fun hc => by rw [h5]; exact hc)

/-! ### Frames -/

theorem updCounters_onward (f : FrameCounters → FrameCounters) : Onward s (updCounters f s) :=
  lcPlain_onward s _ rfl rfl rfl rfl rfl

theorem reportDiscarded_onward (f : TxFrame) : Onward s (reportDiscarded f s) := by
  unfold reportDiscarded
  split
  · exact queryDiscarded_onward s _ _
  · exact offerDiscarded_onward s _
  · exact .refl s

theorem reportAll_onward (l : List TxFrame) : Onward s (reportAll l s) := by
  induction l generalizing s with
  | nil => exact .refl s
  | cons f rest ih => exact (reportDiscarded_onward s f).trans (ih _)

theorem withdrawLink_onward : Onward s (withdrawLink s) := by
  unfold withdrawLink
  refine Onward.trans ?_ (reportAll_onward _ _)
  exact { Onward.refl s with queue := fun _ => Nat.zero_le _, status := fun _ => Nat.zero_le _ }

theorem conflictCheck_onward (source : Nat) (start : BitVec 16) : Onward s (conflictCheck source start s) := by
  unfold conflictCheck
  exact .ite (withdrawLink_onward s) (.refl s)

theorem claimToDrop_mem {l : List Claim} {c : Claim} (hc : claimToDrop l = some c) : c ∈ l := by
  induction l generalizing c with
  | nil => simp [claimToDrop] at hc
  | cons x rest ih =>
    unfold claimToDrop at hc
    split at hc
    · simp_all
    · rename_i best hb
      split at hc
      · simp_all
      · have := ih hb; simp_all

theorem claimToDrop_none {l : List Claim} (hc : claimToDrop l = none) : l = [] := by
  cases l with
  | nil => rfl
  | cons x rest =>
    unfold claimToDrop at hc
    split at hc
    · simp at hc
    · split at hc <;> simp at hc

theorem claimRoom_length {l : List Claim} (hl : l.length ≤ 16) : (claimRoom l).length < 16 := by
  unfold claimRoom
  split
  · assumption
  · split
    · rename_i h1 _ h2; rw [claimToDrop_none h2] at h1; simp at h1
    · rename_i c hc
      refine Nat.lt_of_lt_of_le ?_ hl
      rw [List.length_filter_lt_length_iff_exists]
      exact ⟨c, claimToDrop_mem hc, by simp⟩

theorem insertClaim_length (c : Claim) (l : List Claim) : (insertClaim c l).length = l.length + 1 := by
  induction l with
  | nil => rfl
  | cons x rest ih => unfold insertClaim; split <;> simp [ih]

theorem claimsAfter_length {l : List Claim} (station cover now : Nat) (claimed : Bool) (hl : l.length ≤ 16) :
    (claimsAfter l station cover now claimed).length ≤ 16 := by
  unfold claimsAfter
  have hf : (l.filter (fun x => x.station != station)).length ≤ 16 := (List.length_filter_le _ _).trans hl
  simp only []
  split
  · rw [insertClaim_length]
    split
    · rename_i hany
      rw [List.any_eq_true] at hany
      obtain ⟨x, hx, hs⟩ := hany
      have : (l.filter (fun x => x.station != station)).length < l.length := by
        rw [List.length_filter_lt_length_iff_exists]
        exact ⟨x, hx, by simp_all⟩
      omega
    · exact claimRoom_length hf
  · exact hf

theorem heardClaim_onward (source : Nat) (b : StatusBody) : Onward s (heardClaim source b s) := by
  unfold heardClaim
  exact .ite (lc_onward s _ rfl le_rfl id rfl (claimsAfter_length _ _ _ _)) (.refl s)

theorem clockMarked_onward (old : Lc) : Onward s (clockMarked old s) := by
  unfold clockMarked
  have h1 : Onward s { s with lc := { s.lc with sure := true } } :=
    lc_onward s _ rfl le_rfl (fun _ => rfl) rfl id
  exact .ite (h1.trans (switchTest_onward _)) h1

theorem clockMark_onward (t : Nat) : Onward s (clockMark t s) := by
  unfold clockMark
  refine Onward.trans ?_ (clockMarked_onward _ _)
  split
  · rename_i hc
    refine Onward.trans ?_ (scAsk_onward _ _)
    exact lc_onward s _ rfl (by show s.lc.clock ≤ t; omega) id rfl id
  · exact .ite (lcPlain_onward s _ rfl rfl rfl rfl rfl) (.ite (lcPlain_onward s _ rfl rfl rfl rfl rfl) (.refl s))

theorem satInc_le (top n : Nat) : n ≤ satInc top n := by
  unfold satInc
  split <;> omega

theorem clockCount_onward : Onward s (clockCount s) := by
  unfold clockCount
  refine Onward.trans ?_ (switchTest_onward _)
  exact lc_onward s _ rfl (satInc_le _ _) id rfl id

theorem abandonReassembly_onward : Onward s (abandonReassembly s) := by
  unfold abandonReassembly
  refine Onward.trans ?_ (bookAbandoned_onward _)
  exact lcPlain_onward s _ rfl rfl rfl rfl rfl

theorem fragmentDiscard_onward : Onward s (fragmentDiscard s) := updCounters_onward s _

theorem handFragment_onward (endFlag : Bool) (b : PriceBody) : Onward s (handFragment endFlag b s) := by
  unfold handFragment
  split
  · exact (bookBegin_onward s _ _ _).trans (.ite (bookEnd_onward _ _) (.refl _))
  · exact bookEntries_onward s _ _
  · exact bookEnd_onward s _

theorem beginFragment_onward (hd : Header) (b : PriceBody) : Onward s (beginFragment hd b s) := by
  unfold beginFragment
  have h1 : Onward s (if s.lc.reassembly.isSome then abandonReassembly s else s) :=
    .ite (abandonReassembly_onward s) (.refl s)
  refine Onward.trans ?_ (handFragment_onward _ _ _)
  refine h1.trans ?_
  exact lcPlain_onward _ _ rfl rfl rfl rfl rfl

theorem nextFragment_onward (r : Reassembly) (hd : Header) (b : PriceBody) : Onward s (nextFragment r hd b s) := by
  unfold nextFragment
  split
  · refine Onward.trans ?_ (handFragment_onward _ _ _)
    exact lcPlain_onward s _ rfl rfl rfl rfl rfl
  · refine Onward.trans ?_ (.ite (abandonReassembly_onward _) (.refl _))
    refine Onward.trans ?_ (handFragment_onward _ _ _)
    exact lcPlain_onward s _ rfl rfl rfl rfl rfl

theorem priceFrame_onward (hd : Header) (index : Nat) (b : PriceBody) : Onward s (priceFrame hd index b s) := by
  unfold priceFrame
  split
  · exact .ite (beginFragment_onward s _ _) (fragmentDiscard_onward s)
  · split
    · exact fragmentDiscard_onward s
    · exact .ite (fragmentDiscard_onward s) (.ite (nextFragment_onward s _ _ _)
        ((abandonReassembly_onward s).trans (fragmentDiscard_onward _)))

theorem spacingHeard_onward : Onward s (spacingHeard s) := by
  unfold spacingHeard
  refine .ite (.ite (Onward.trans ?_ (lcKick_onward _)) ?_) (.refl s)
  · exact lcPlain_onward s _ rfl rfl rfl rfl rfl
  · exact lcPlain_onward s _ rfl rfl rfl rfl rfl

theorem heardFrame_onward : Onward s (heardFrame s) := by
  unfold heardFrame
  refine Onward.trans ?_ (spacingHeard_onward _)
  exact lcPlain_onward s _ rfl rfl rfl rfl rfl

theorem passOn_onward (hd : Header) (body : FrameBody) : Onward s (passOn hd body s) := by
  unfold passOn
  cases body with
  | hello start p => exact conflictCheck_onward s _ _
  | status b => exact (conflictCheck_onward s _ _).trans (heardClaim_onward _ _ _)
  | draw m d => exact heardDraw_onward s _ _ _
  | query m w => exact heardQuery_onward s _ _
  | answer m ds => exact heardAnswer_onward s _ _ _
  | record n i c => exact .refl s
  | mark t n time => exact (clockMark_onward s _).trans (.ite (takeMark_onward _ _) (.refl _))
  | price i b => exact priceFrame_onward s _ _ _
  | delivery t n v time => exact .ite (delivery_onward s _ _ _ _) (.refl s)

theorem checkFrame_onward (hd : Header) (body : FrameBody) : Onward s (checkFrame hd body s) := by
  unfold checkFrame
  exact .ite (updCounters_onward s _) (.ite (updCounters_onward s _) (.ite (updCounters_onward s _)
    ((heardFrame_onward s).trans (passOn_onward _ _ _))))

theorem markJudged_onward : Onward s (markJudged s) := lcPlain_onward s _ rfl rfl rfl rfl rfl

theorem receiveFields_onward (hd : Header) (body : FrameBody) : Onward s (receiveFields hd body s) := by
  unfold receiveFields
  exact .ite ((markJudged_onward s).trans (.ite (checkFrame_onward _ _ _) (updCounters_onward _ _))) (.refl s)

theorem judgeLine_onward (line : List Byte) : Onward s (judgeLine line s) := by
  unfold judgeLine
  split <;> first | exact updCounters_onward s _ | exact checkFrame_onward s _ _

theorem receiveLine_onward (line : List Byte) : Onward s (receiveLine line s) := by
  unfold receiveLine
  exact .ite ((markJudged_onward s).trans (judgeLine_onward _ _)) (.refl s)

/-! ### The reader heads -/

theorem finishTag_onward (code : Completion) : Onward s (finishTag h code s) := by
  unfold finishTag
  have h1 := updTiu_onward s h (fun x => x.finish code)
  simp only []
  split
  · exact h1.trans (readReport_onward _ h _ _)
  · exact h1.trans (.ite (probeReport_onward _ h) (writeReport_onward _ h _))
  · exact h1

theorem continueTag_onward (busy : TagBusy) (op : HeadOp) (endMark : Bool) :
    Onward s (continueTag h busy op endMark s) := updTiu_onward s h _

theorem readEnds_onward (fixed : FixedPart) (f1 f2 : List Byte) : Onward s (readEnds h fixed f1 f2 s) := by
  unfold readEnds
  refine Onward.trans ?_ (finishTag_onward _ h _)
  exact .ite (updTiu_onward s h _) (.refl s)

theorem writeEnds_onward (hist : History) : Onward s (writeEnds h hist s) :=
  (updTiu_onward s h _).trans (finishTag_onward _ h _)

theorem answeredDone_onward (bytes : List Byte) : Onward s (answeredDone h bytes s) := by
  unfold answeredDone fragmentZero
  split
  · exact .refl s
  · split
    · exact continueTag_onward s h _ _ _
    · exact finishTag_onward s h _
  · exact continueTag_onward s h _ _ _
  · exact readEnds_onward s h _ _ _
  · exact continueTag_onward s h _ _ _
  · exact writeEnds_onward s h _
  · exact finishTag_onward s h _

theorem takeAnswer_onward (result : HeadResult) : Onward s (takeAnswer h result s) := by
  unfold takeAnswer
  split
  · exact answeredDone_onward s h _
  · exact finishTag_onward s h _
  · exact finishTag_onward s h _

/-! ### The meters -/

theorem billedPulse_onward (before gross std : Nat) : Onward s (billedPulse h before gross std s) := by
  unfold billedPulse
  have h1 := ((recordIncrement_onward s h gross std).trans (suIncrement_onward _ std)).trans
    (hosePulse_onward _ h std)
  exact .ite (h1.trans (scAsk_onward _ _)) h1

theorem meteredPulse_onward (d : MuDispense) : Onward s (meteredPulse h d s) := by
  unfold meteredPulse
  exact .ite ((updMu_onward s h _).trans (hosePulse_onward _ h _))
    ((updMu_onward s h _).trans (billedPulse_onward _ h _ _ _))

theorem forwardPulse_onward : Onward s (forwardPulse h s) := by
  unfold forwardPulse
  have h1 := (updMu_onward s h (fun mu => { mu with windowCount := satInc max16 mu.windowCount })).trans
    (meterMoved_onward _)
  simp only []
  split
  · exact h1.trans (meteredPulse_onward _ h _)
  · exact h1.trans (updMu_onward _ h _)

theorem mismatchEdge_onward : Onward s (mismatchEdge h s) := by
  have h1 : ∀ due : Bool, Onward s (if due then hoseEnd h .meterFault (s.updMu h (fun mu => { mu with
      mismatch := satInc max16 mu.mismatch, dispense := mu.dispense.map MuDispense.mismatch }))
      else (s.updMu h (fun mu => { mu with
        mismatch := satInc max16 mu.mismatch, dispense := mu.dispense.map MuDispense.mismatch }))) :=
    fun due => .ite ((updMu_onward s h _).trans (hoseEnd_onward _ h _)) (updMu_onward s h _)
  exact h1 _

theorem risingA_onward (levelB : Bool) : Onward s (risingA h levelB s) := by
  unfold risingA
  have h1 := updMu_onward s h Mu.afterEdge
  simp only []
  split
  · exact h1.trans (forwardPulse_onward _ h)
  · exact h1.trans (updMu_onward _ h _)
  · exact h1.trans (mismatchEdge_onward _ h)

theorem windowEnds_onward (sample : TempSample) : Onward s (windowEnds h sample s) := by
  unfold windowEnds
  exact .ite ((updMu_onward s h _).trans (forcedSlow_onward _ h)) (updMu_onward s h _)

/-! ### The panel -/

/-- A change of PP. -/
theorem pp_onward (p : Pp) : Onward s { s with pp := p } := { Onward.refl s with }

theorem sendOut_onward (content : PanelOut) : Onward s (sendOut content s) := pp_onward s _
theorem clearSent_onward : Onward s (clearSent s) := pp_onward s _
theorem sendHose_onward : Onward s (sendHose h s) := { Onward.refl s with }
theorem sendSite_onward : Onward s (sendSite s) := { Onward.refl s with }

theorem sendPage_onward (page : Byte) : Onward s (sendPage page s) := { Onward.refl s with }

theorem sendPages_onward (pages : List Byte) : ∀ s, Onward s (pages.foldl (fun u page => sendPage page u) s) := by
  induction pages with
  | nil => exact .refl
  | cons page rest ih => exact fun s => (sendPage_onward s page).trans (ih _)

theorem sendPagesDue_onward : Onward s (sendPagesDue s) := (sendPages_onward _ s).trans (pp_onward _ _)

theorem sendPageShown_onward : Onward s (sendPageShown s) := (pp_onward s _).trans (sendPagesDue_onward _)

theorem sendInspect_onward : Onward s (sendInspect s) := by
  unfold sendInspect
  exact .ite (sendOut_onward s _) (.refl s)

theorem sendAll_onward : Onward s (sendAll s) :=
  ((((sendHose_onward s .a).trans (sendHose_onward _ .b)).trans (sendSite_onward _)).trans
    (sendPageShown_onward _)).trans (sendInspect_onward _)

theorem displaySend_onward (target : DisplayTarget) : Onward s (displaySend target s) := by
  unfold displaySend
  split
  · exact .refl s
  · exact (clearSent_onward s).trans (sendSite_onward _)
  · exact (clearSent_onward s).trans (sendSite_onward _)
  · exact .refl s
  · exact .refl s
  · exact atDue_onward s _ (fun t => (((clearSent_onward t).trans (sendHose_onward _ _)).trans
      (sendPagesDue_onward _)).trans (sendInspect_onward _))
  · exact atDue_onward s _ (fun t => (((clearSent_onward t).trans (sendSite_onward _)).trans
      (sendPagesDue_onward _)).trans (sendInspect_onward _))
  · split
    · exact atDue_onward s _ (fun t => ((clearSent_onward t).trans (sendPageShown_onward _)).trans
        (sendInspect_onward _))
    · exact .refl s
  · refine atDue_onward s _ (fun t => ?_)
    exact ((clearSent_onward t).trans (sendAll_onward _)).trans (pp_onward _ _)

theorem digitKey_onward (d : Nat) : Onward s (digitKey d s) := by
  unfold digitKey
  split
  · rename_i hl
    exact au_onward s _ (fun _ => by
      show (s.au.digits ++ [d]).length ≤ 6
      rw [List.length_append]; exact hl)
  · exact .refl s

theorem emptyEntry_onward : Onward s (emptyEntry s) := au_onward s _ (fun _ => Nat.zero_le _)
theorem closeInspect_onward : Onward s (closeInspect s) := { Onward.refl s with }

theorem selectKey_onward : Onward s (selectKey h s) := by
  unfold selectKey
  refine Onward.trans ?_ (proveHose_onward _ h)
  exact ((emptyEntry_onward s).trans (closeInspect_onward _)).trans (pp_onward _ _)

theorem enterKey_onward : Onward s (enterKey s) := by
  unfold enterKey
  exact .ite (.refl s) (.ite ((emptyEntry_onward s).trans (proveEnter_onward _ _))
    (.ite ((emptyEntry_onward s).trans (prompt_onward _ _)) ((emptyEntry_onward s).trans (presetValue_onward _ _ _))))

theorem clearKey_onward : Onward s (clearKey s) := by
  unfold clearKey
  refine .ite (emptyEntry_onward s) ?_
  split <;> first | exact .refl s | exact proveClear_onward s | exact au_onward s _ id

theorem stopKey_onward : Onward s (stopKey s) := by
  unfold stopKey
  simp only []
  split <;> first
    | exact hoseEnd_onward s _ _
    | exact .ite (hoseEnd_onward s _ _) (prompt_onward s _)
    | exact prompt_onward s _

theorem withAuthority_onward {f : Nat → State → State} (hf : ∀ n, Onward s (f n s)) :
    Onward s (withAuthority s f) := by
  unfold withAuthority
  exact .ite (hf _) (prompt_onward s _)

theorem inspectKey_onward : Onward s (inspectKey s) := by
  unfold inspectKey
  refine Onward.trans (emptyEntry_onward s) ?_
  exact { Onward.refl (emptyEntry s) with }

theorem keyPresent_onward (id : Nat) : Onward s (keyPresent id s) := by
  unfold keyPresent
  refine .ite (prompt_onward s _) (Onward.trans ?_ (keyForHose_onward _ _))
  exact pp_onward s _

theorem keyRemove_onward : Onward s (keyRemove s) := pp_onward s _

theorem panelDeal_onward (m : PanelIn) : Onward s (panelDeal m s) := by
  unfold panelDeal
  split
  · exact digitKey_onward s _
  · exact selectKey_onward s _
  · exact enterKey_onward s
  · exact clearKey_onward s
  · exact stopKey_onward s
  · exact withAuthority_onward s (proveKey_onward s)
  · exact withAuthority_onward s (fun _ => ackKey_onward s)
  · exact withAuthority_onward s (adoptKey_onward s)
  · exact withAuthority_onward s (fun _ => inspectKey_onward s)
  · exact keyPresent_onward s _
  · exact keyRemove_onward s
  · exact pp_onward s _

theorem acknowledge_onward (num : Byte) : Onward s (acknowledge num s) :=
  ((clearSent_onward s).trans (sendOut_onward _ _)).trans (pp_onward _ _)

theorem becomePresent_onward : Onward s (becomePresent s) := by
  unfold becomePresent
  refine .ite (.refl s) (Onward.trans ?_ (sendAll_onward _))
  exact pp_onward s _

theorem panelMessage_onward (num : Byte) (m : PanelIn) : Onward s (panelMessage num m s) := by
  unfold panelMessage
  refine .ite (acknowledge_onward s num) (Onward.trans (Onward.trans ?_ (becomePresent_onward _))
    (panelDeal_onward _ m))
  exact (acknowledge_onward s num).trans (pp_onward _ _)

theorem panelBytes_onward (message : List Byte) : Onward s (panelBytes message s) := by
  unfold panelBytes
  split
  · exact pp_onward s _
  · exact acknowledge_onward s _
  · exact panelMessage_onward s _ _

theorem panelLost_onward : Onward s (panelLost s) := { Onward.refl s with }

/-! ### Store writes -/

theorem writeOutcome_onward (w : WriteContents) (good : Bool) : Onward s (writeOutcome w good s) := by
  unfold writeOutcome storeFailed
  refine .ite ?_ ?_
  · exact { Onward.refl s with }
  · exact { Onward.refl s with fault := fun _ => rfl }

theorem settleSequence_onward (n : Nat) : Onward s (settleSequence n s) := by
  unfold settleSequence
  refine Onward.trans ?_ (askStock_onward _)
  exact su_onward s _ id

theorem dispenseClosed_onward (r : JRec) (good : Bool) : Onward s (dispenseClosed r h good s) := by
  unfold dispenseClosed
  refine .ite (Onward.trans ?_ (closeEnded_onward _ h)) ?_
  · exact { Onward.refl s with }
  · exact { Onward.refl s with }

theorem reportRecord_onward (r : JRec) (good : Bool) : Onward s (reportRecord r good s) := by
  unfold reportRecord
  split <;> first
    | exact dispenseClosed_onward s _ r good
    | exact settleSequence_onward s _
    | exact proveRecordEnd_onward s _ _
    | exact switchEnd_onward s _
    | exact .refl s

theorem recordWritten_onward (n : Nat) (good : Bool) : Onward s (recordWritten n good s) := by
  unfold recordWritten
  split
  · exact .refl s
  · refine Onward.trans (Onward.trans ?_ (reportRecord_onward _ _ _)) (chooseOffer_onward _)
    exact { Onward.refl s with }

theorem journalWritten_onward (good : Bool) : Onward s (journalWritten good s) := by
  unfold journalWritten
  have h1 : Onward s { s with ju := { s.ju with writing := none } } := { Onward.refl s with }
  simp only []
  split
  · exact h1.trans (recordWritten_onward _ _ _)
  · exact h1

theorem reportWrite_onward (r : Requester) (good : Bool) : Onward s (reportWrite r good s) := by
  unfold reportWrite
  split <;> first | exact journalWritten_onward s _ | exact proveFactorEnd_onward s _ | exact .refl s

theorem askAgain_onward (r : Requester) : Onward s (askAgain r s) := by
  unfold askAgain
  split
  · exact askJournal_onward s
  · refine .ite (Onward.trans ?_ (scAsk_onward _ _)) (.refl s)
    exact su_onward s _ id
  · refine .ite (Onward.trans ?_ (scAsk_onward _ _)) (.refl s)
    exact pbu_onward s _
  · exact .refl s
  · exact .refl s
  · exact .refl s

theorem storeWriteEnds_onward (good : Bool) : Onward s (storeWriteEnds good s) := by
  unfold storeWriteEnds
  split
  · exact .refl s
  · rename_i r w _
    refine Onward.trans ?_ (scKick_onward _)
    refine Onward.trans ?_ (askAgain_onward _ _)
    refine Onward.trans ((writeOutcome_onward s w good).trans (reportWrite_onward _ r good)) ?_
    exact { Onward.refl _ with }

/-! ### The channel and the link's times -/

theorem startTxAfter_onward (lc : Lc) (p : Prop) [Decidable p] (h1 : Onward s { s with lc := lc }) :
    Onward s (if p then startTx { s with lc := lc } else { s with lc := lc }) :=
  .ite (h1.trans (startTx_onward _)) h1

theorem gapMetNow_onward : Onward s (gapMetNow s) := by
  unfold gapMetNow
  simp only []
  split
  · exact startTxAfter_onward s _ _ (lcPlain_onward s _ rfl rfl rfl rfl rfl)
  · exact lcPlain_onward s _ rfl rfl rfl rfl rfl

theorem slotPasses_onward : Onward s (slotPasses s) := by
  unfold slotPasses
  split
  · exact .refl s
  · exact startTxAfter_onward s _ _ (lcPlain_onward s _ rfl rfl rfl rfl rfl)

theorem carrierUp_onward : Onward s (carrierUp s) := lcPlain_onward s _ rfl rfl rfl rfl rfl

theorem judgeRest_onward (rest : List Byte) : Onward s (judgeRest rest s) := by
  unfold judgeRest
  exact .ite (.refl s) (receiveLine_onward s rest)

theorem carrierDown_onward (rest : List Byte) : Onward s (carrierDown rest s) := by
  unfold carrierDown
  refine Onward.trans (judgeRest_onward s rest) ?_
  exact lcPlain_onward _ _ rfl rfl rfl rfl rfl

theorem channelAfterTx_onward (f : TxFrame) : Onward s (channelAfterTx f s) :=
  lcPlain_onward s _ rfl rfl rfl rfl rfl

theorem reportSent_onward (f : TxFrame) : Onward s (reportSent f s) := by
  unfold reportSent
  split
  · exact .ite (lcPlain_onward s _ rfl rfl rfl rfl rfl) (.refl s)
  · exact querySent_onward s _ _
  · exact fragmentSent_onward s _ _ _
  · exact .refl s
  · exact .refl s
  · exact .refl s

theorem transmissionEnds_onward (f : TxFrame) : Onward s (transmissionEnds f s) :=
  ((channelAfterTx_onward s f).trans (reportSent_onward _ f)).trans (lcKick_onward _)

theorem spacingReleases_onward : Onward s (spacingReleases s) := by
  unfold spacingReleases
  refine Onward.trans ?_ (lcKick_onward _)
  exact lcPlain_onward s _ rfl rfl rfl rfl rfl

theorem announce_onward : Onward s (announce s) := by
  unfold announce
  refine Onward.trans ?_ (enqueueFrame_onward _ _ (.inl (by simp [helloFrame])))
  exact lcPlain_onward s _ rfl rfl rfl rfl rfl

theorem join_onward : Onward s (join s) := by
  unfold join
  refine Onward.trans (Onward.trans ?_ (makeStatus_onward _)) (chooseOffer_onward _)
  exact lcPlain_onward s _ rfl rfl rfl rfl rfl

theorem holdEnds_onward (due : Nat) : Onward s (holdEnds due s) := by
  unfold holdEnds
  refine Onward.trans ?_ (switchTest_onward _)
  exact lcPlain_onward s _ rfl rfl rfl rfl rfl

/-! ### The hoses' commands -/

theorem lifted_onward : Onward s (lifted h s) := by
  unfold lifted
  have h1 := (pp_onward s { s.pp with selected := h }).trans
    (updHc_onward _ h (fun hc => { hc with nozzleOut := true }))
  simp only []
  split
  · exact .ite (h1.trans (updHc_onward _ h _))
      ((h1.trans (updHc_onward _ h _)).trans (startSession_onward _ h))
  · exact .ite (h1.trans (proveReadyTest_onward _)) h1
  · exact h1

theorem hung_onward : Onward s (hung h s) := by
  unfold hung
  have h1 := updHc_onward s h (fun hc => { hc with nozzleOut := false, shown := .nothing, proveShown := none, factorNotStored := false })
  simp only []
  split <;> first
    | exact h1.trans (endSession_onward _ h)
    | exact h1.trans (hoseEnd_onward _ h _)
    | exact h1.trans (updHc_onward _ h _)
    | exact h1

theorem readSecond_onward : Onward s (readSecond h s) := (updSession_onward s h _).trans (requestRead_onward _ h)
theorem probeSecond_onward : Onward s (probeSecond h s) := (updHc_onward s h _).trans (probe_onward _ h)

theorem drained_onward : Onward s (drained h s) := by
  unfold drained
  split
  · exact closeFromDrain_onward s h
  · exact proveClose_onward s h
  · exact .refl s

/-! ### The warning -/

theorem dropAll_onward (l : List WaitReq) : Onward s (l.foldl (fun acc r => requesterDropped r acc) s) := by
  induction l generalizing s with
  | nil => exact .refl s
  | cons r rest ih => exact (requesterDropped_onward s r).trans (ih _)

theorem dropWaiting_onward : Onward s (dropWaiting s) := by
  unfold dropWaiting
  refine Onward.trans ?_ (dropAll_onward _ _)
  exact { Onward.refl s with }

theorem linkWarned_onward : Onward s (linkWarned s) := by
  unfold linkWarned
  refine Onward.trans (Onward.trans ?_ (reportAll_onward _ _)) (scAsk_onward _ _)
  exact { Onward.refl s with queue := fun _ => Nat.zero_le _, status := fun _ => Nat.zero_le _ }

theorem pumpWarned_onward : Onward s (pumpWarned s) := pump_onward s _ id

theorem stoppingWarned_onward : Onward s (stoppingWarned h s) := by
  unfold stoppingWarned
  split
  · exact closeStraight_onward s h
  · exact enterWriting_onward s h _
  · exact enterWriting_onward s h _

theorem hoseWarned_onward : Onward s (hoseWarned h s) := by
  unfold hoseWarned
  have h1 : Onward s (closeStage h s) := updHc_onward s h _
  simp only []
  split
  · exact h1.trans (leaveAuthorised_onward _ h _)
  · exact (h1.trans (updHc_onward _ h _)).trans (closeStraight_onward _ h)
  · exact h1.trans (stoppingWarned_onward _ h)
  · exact .ite ((h1.trans (updHc_onward _ h _)).trans (proveClose_onward _ h)) h1
  · exact h1

theorem takeWarning_onward : Onward s (takeWarning s) := by
  unfold takeWarning
  have h0 : Onward s { s with warned := true } := { Onward.refl s with warned := fun _ => rfl }
  have h1 := (((h0.trans (cancelWait_onward _ .a)).trans (cancelWait_onward _ .b)).trans
    (endSession_onward _ .a)).trans (endSession_onward _ .b)
  have h2 := ((h1.trans (dropWaiting_onward _)).trans (linkWarned_onward _)).trans (pumpWarned_onward _)
  have h3 := ((h2.trans (hoseWarned_onward _ .a)).trans (hoseWarned_onward _ .b)).trans (proveWarned_onward _)
  exact (h3.trans (askStock_onward _)).trans (closeInspect_onward _)

/-! ### Every command -/

/-- A command taken by a released part. -/
theorem live_onward {f : State → State} (hf : Onward s (f s)) : ∃ t, live s f = .next t ∧ Onward s t := by
  unfold live
  split
  · exact ⟨_, rfl, hf⟩
  · exact ⟨_, rfl, .refl s⟩

/-- A time-driven command with an operation that goes on from every state. -/
theorem liveAtDue_onward (due : State → Option Nat) {f : State → State} (hf : ∀ t, Onward t (f t)) :
    ∃ t, live s (fun s => atDue (due s) s f) = .next t ∧ Onward s t :=
  live_onward s (atDue_onward s _ hf)

/-- The commands that do not change the supply or start the part up. -/
def Instr.ordinary : Instr → Bool
  | .supplyUp _ _ | .startupRelease _ _ _ | .supplyFailure => false
  | _ => true

/-- Every ordinary command answers a next state, and goes on from the state it is taken in. -/
theorem exec_onward (i : Instr) (hi : Instr.ordinary i = true) : ∃ t, exec i s = .next t ∧ Onward s t := by
  cases i with
  | supplyUp m f => simp [Instr.ordinary] at hi
  | startupRelease a b c => simp [Instr.ordinary] at hi
  | supplyFailure => simp [Instr.ordinary] at hi
  | powerFailWarning =>
    refine ⟨_, rfl, ?_⟩
    split
    · exact .refl s
    · exact { Onward.refl s with }
    · exact .ite (.refl s) (takeWarning_onward s)
  | idleGap =>
    dsimp only [exec, execIdleGap]
    exact liveAtDue_onward s _ gapMetNow_onward
  | backoffSlot =>
    dsimp only [exec, execBackoffSlot]
    exact liveAtDue_onward s _ slotPasses_onward
  | carrierSenseActive =>
    dsimp only [exec, execCarrierSenseActive]
    exact live_onward s (Onward.ite (.refl s) (carrierUp_onward s))
  | transmissionEnd =>
    dsimp only [exec, execTransmissionEnd]
    refine live_onward s ?_
    split
    · exact atDue_onward s _ (fun t => transmissionEnds_onward t _)
    · exact .refl s
  | recordSpacingIdleTotal =>
    dsimp only [exec, execRecordSpacingIdleTotal]
    exact liveAtDue_onward s _ spacingReleases_onward
  | badFrame line =>
    dsimp only [exec, execBadFrame]
    exact live_onward s (receiveLine_onward s line)
  | hello hd n p =>
    dsimp only [exec, execHello]
    exact live_onward s (receiveFields_onward s _ _)
  | status hd b =>
    dsimp only [exec, execStatus]
    exact live_onward s (receiveFields_onward s _ _)
  | draw hd m d =>
    dsimp only [exec, execDraw]
    exact live_onward s (receiveFields_onward s _ _)
  | query hd m w =>
    dsimp only [exec, execQuery]
    exact live_onward s (receiveFields_onward s _ _)
  | answer hd m ds =>
    dsimp only [exec, execAnswer]
    exact live_onward s (receiveFields_onward s _ _)
  | record hd n i c =>
    dsimp only [exec, execRecord]
    exact live_onward s (receiveFields_onward s _ _)
  | mark hd t n time =>
    dsimp only [exec, execMark]
    exact live_onward s (receiveFields_onward s _ _)
  | price hd i b =>
    dsimp only [exec, execPrice]
    exact live_onward s (receiveFields_onward s _ _)
  | delivery hd t n v time =>
    dsimp only [exec, execDelivery]
    exact live_onward s (receiveFields_onward s _ _)
  | listenTime =>
    dsimp only [exec, execListenTime]
    exact liveAtDue_onward s _ announce_onward
  | settleTime =>
    dsimp only [exec, execSettleTime]
    exact liveAtDue_onward s _ join_onward
  | isolationTime =>
    dsimp only [exec, execIsolationTime]
    exact liveAtDue_onward s _ (fun t => lcPlain_onward t _ rfl rfl rfl rfl rfl)
  | statusPeriod =>
    dsimp only [exec, execStatusPeriod]
    exact liveAtDue_onward s _ makeStatus_onward
  | reassemblyTimeLimit =>
    dsimp only [exec, execReassemblyTimeLimit]
    exact liveAtDue_onward s _ abandonReassembly_onward
  | siteClockCount =>
    dsimp only [exec, execSiteClockCount]
    exact liveAtDue_onward s _ clockCount_onward
  | clockHoldEnd =>
    dsimp only [exec, execClockHoldEnd]
    refine live_onward s ?_
    split
    · exact (reach_onward s _).trans (holdEnds_onward _ _)
    · exact .refl s
  | clockStoringPeriod =>
    dsimp only [exec, execClockStoringPeriod]
    refine liveAtDue_onward s _ (fun t => Onward.trans ?_ (scAsk_onward _ _))
    exact lcPlain_onward t _ rfl rfl rfl rfl rfl
  | claimsListEntryExpiry station =>
    dsimp only [exec, execClaimsListEntryExpiry]
    exact liveAtDue_onward s _ (fun t => lc_onward t _ rfl le_rfl id rfl
      (fun hl => (List.length_filter_le _ _).trans hl))
  | headAnswer h ok n r =>
    dsimp only [exec, execHeadAnswer]
    exact live_onward s (Onward.ite (takeAnswer_onward s h r) (updTiu_onward s h _))
  | headCommandTimeout h =>
    dsimp only [exec, execHeadCommandTimeout]
    exact liveAtDue_onward s _ (fun t => finishTag_onward t h _)
  | keyPresented n id =>
    dsimp only [exec, execKeyPresented]
    exact live_onward s (panelMessage_onward s _ _)
  | keyRemoved n =>
    dsimp only [exec, execKeyRemoved]
    exact live_onward s (panelMessage_onward s _ _)
  | digit n d =>
    dsimp only [exec, execDigit]
    exact live_onward s (panelMessage_onward s _ _)
  | hoseKey n h =>
    dsimp only [exec, execHoseKey]
    exact live_onward s (panelMessage_onward s _ _)
  | enter n =>
    dsimp only [exec, execEnter]
    exact live_onward s (panelMessage_onward s _ _)
  | clear n =>
    dsimp only [exec, execClear]
    exact live_onward s (panelMessage_onward s _ _)
  | stop n =>
    dsimp only [exec, execStop]
    exact live_onward s (panelMessage_onward s _ _)
  | prove n =>
    dsimp only [exec, execProve]
    exact live_onward s (panelMessage_onward s _ _)
  | ack n =>
    dsimp only [exec, execAck]
    exact live_onward s (panelMessage_onward s _ _)
  | adopt n =>
    dsimp only [exec, execAdopt]
    exact live_onward s (panelMessage_onward s _ _)
  | inspect n =>
    dsimp only [exec, execInspect]
    exact live_onward s (panelMessage_onward s _ _)
  | panelStatus n p =>
    dsimp only [exec, execPanelStatus]
    exact live_onward s (panelMessage_onward s _ _)
  | panelBad m =>
    dsimp only [exec, execPanelBad]
    exact live_onward s (panelBytes_onward s m)
  | panelAbsent =>
    dsimp only [exec, execPanelAbsent]
    exact liveAtDue_onward s _ panelLost_onward
  | displayRecordSend t => exact ⟨_, rfl, displaySend_onward s t⟩
  | promptExpiry =>
    dsimp only [exec, execPromptExpiry]
    exact liveAtDue_onward s _ (fun t => pp_onward t _)
  | pulse h b =>
    dsimp only [exec, execPulse]
    exact live_onward s (risingA_onward s h b)
  | flowWindowEnd h x =>
    dsimp only [exec, execFlowWindowEnd]
    exact liveAtDue_onward s _ (fun t => windowEnds_onward t h x)
  | nozzleLift h =>
    dsimp only [exec, execNozzleLift]
    exact live_onward s (Onward.ite (.refl s) (lifted_onward s h))
  | nozzleHang h =>
    dsimp only [exec, execNozzleHang]
    exact live_onward s (Onward.ite (hung_onward s h) (.refl s))
  | readRequestSecond h =>
    dsimp only [exec, execReadRequestSecond]
    exact liveAtDue_onward s _ (fun t => readSecond_onward t h)
  | tagReadTimeLimit h =>
    dsimp only [exec, execTagReadTimeLimit]
    exact liveAtDue_onward s _ (fun t => refuse_onward t h _)
  | keyWaitTimeLimit h =>
    dsimp only [exec, execKeyWaitTimeLimit]
    exact liveAtDue_onward s _ (fun t => refuse_onward t h _)
  | querySendLimit h =>
    dsimp only [exec, execQuerySendLimit]
    refine live_onward s ?_
    split
    · exact (reach_onward s _).trans (endWait_onward _ h _)
    · exact .refl s
  | queryAnswerTime h =>
    dsimp only [exec, execQueryAnswerTime]
    refine live_onward s ?_
    split
    · exact (reach_onward s _).trans (endWait_onward _ h _)
    · exact .refl s
  | noFlowTimer h =>
    dsimp only [exec, execNoFlowTimer]
    exact liveAtDue_onward s _ (fun t => hoseEnd_onward t h _)
  | idleTimer h =>
    dsimp only [exec, execIdleTimer]
    exact liveAtDue_onward s _ (fun t => hoseEnd_onward t h _)
  | probeSecond h =>
    dsimp only [exec, execProbeSecond]
    exact liveAtDue_onward s _ (fun t => probeSecond_onward t h)
  | drainEnd h =>
    dsimp only [exec, execDrainEnd]
    exact liveAtDue_onward s _ (fun t => drained_onward t h)
  | drainTimeLimit h =>
    dsimp only [exec, execDrainTimeLimit]
    exact liveAtDue_onward s _ (fun t => (updHc_onward t h _).trans (drained_onward _ h))
  | runOnTimer =>
    dsimp only [exec, execRunOnTimer]
    exact liveAtDue_onward s _ (fun t => pump_onward t _ id)
  | budgetFall =>
    dsimp only [exec, execBudgetFall]
    refine live_onward s ?_
    split
    · exact (reach_onward s _).trans (budgetFalls_onward _ _)
    · exact .refl s
  | proveSelectTime =>
    dsimp only [exec, execProveSelectTime]
    exact liveAtDue_onward s _ proveCancel_onward
  | proveSizeTime =>
    dsimp only [exec, execProveSizeTime]
    exact liveAtDue_onward s _ proveCancel_onward
  | proveReadingTime =>
    dsimp only [exec, execProveReadingTime]
    exact liveAtDue_onward s _ proveAbandon_onward
  | inspectPageTimeout =>
    dsimp only [exec, execInspectPageTimeout]
    exact liveAtDue_onward s _ closeInspect_onward
  | offerRetryWait =>
    dsimp only [exec, execOfferRetryWait]
    refine liveAtDue_onward s _ (fun t => Onward.trans ?_ (chooseOffer_onward _))
    exact { Onward.refl t with }
  | reofferDue n =>
    dsimp only [exec, execReofferDue]
    exact liveAtDue_onward s _ chooseOffer_onward
  | storeWriteEnd good => exact ⟨_, rfl, .ite (.refl s) (storeWriteEnds_onward s good)⟩
  | gaugeReading fault level temperature =>
    dsimp only [exec, execGaugeReading]
    exact live_onward s (Onward.ite ((takeReading_onward s level temperature).trans (considerCheck_onward _))
      (su_onward s _ id))
  | gaugeTimeout =>
    dsimp only [exec, execGaugeTimeout]
    exact liveAtDue_onward s _ gaugeFails_onward
  | checkRetryWait =>
    dsimp only [exec, execCheckRetryWait]
    exact liveAtDue_onward s _ (fun t => su_onward t _ id)
  | hourEnd =>
    dsimp only [exec, execHourEnd]
    exact liveAtDue_onward s _ (fun t => su_onward t _ id)
  | channelBEdge h rising =>
    dsimp only [exec, execChannelBEdge]
    exact live_onward s (updMu_onward s h _)
  | carrierSenseInactive rest =>
    dsimp only [exec, execCarrierSenseInactive]
    exact live_onward s (Onward.ite (carrierDown_onward s rest) (.refl s))

end Sys2Proof.Machine
end

