-- ==== Sys2Proof/Laws/Ops.lean ====
section
/-! SUPPORT. What a request for a store write, a record asked for and a change of a hose's timers leave as they
were: one lemma per field, so that a proof about a meaning need not unfold the store's queue. -/

namespace Sys2Proof.Machine

variable (s : State)

/-! ### The queue of the Store Controller (R201) -/

/-- A requester that waits already asks for nothing more. -/
theorem scAsk_waiting {r : Requester} (hr : s.sc.queue.contains r = true) : scAsk r s = s := by
  unfold scAsk
  rw [if_pos hr]

/-- While a write is under way a request joins the queue. -/
theorem scAsk_busy {r : Requester} {c : Requester × WriteContents} (hc : s.sc.current = some c)
    (hr : s.sc.queue.contains r = false) :
    scAsk r s = { s with sc := { s.sc with queue := s.sc.queue ++ [r] } } := by
  simp only [scAsk, hr, scKick, hc]
  rfl

/-- With nothing under way and nothing waiting, a request is performed at once. -/
theorem scAsk_idle {r : Requester} (hc : s.sc.current = none) (hq : s.sc.queue = []) :
    scAsk r s = { s with sc := { s.sc with queue := [], current := some (r, writeContents r s) },
                         ju := if r = .ju then juPerform s.ju else s.ju } := by
  have h : scAsk r s = scKick { s with sc := { s.sc with queue := [r] } } := by simp [scAsk, hq]
  rw [h]
  simp only [scKick, hc]
  cases r <;> rfl

/-- Performing a write takes an entry off JU's write list and nothing else of the journal. -/
theorem juPerform_eq (ju : Ju) : juPerform ju = { ju with
    writeList := (juPerform ju).writeList, writing := (juPerform ju).writing } := by
  unfold juPerform
  split <;> rfl

@[simp] theorem juPerform_recs (ju : Ju) : (juPerform ju).recs = ju.recs := by rw [juPerform_eq]
@[simp] theorem juPerform_counter (ju : Ju) : (juPerform ju).counter = ju.counter := by rw [juPerform_eq]
@[simp] theorem juPerform_mark (ju : Ju) : (juPerform ju).mark = ju.mark := by rw [juPerform_eq]
@[simp] theorem juPerform_old (ju : Ju) : (juPerform ju).old = ju.old := by rw [juPerform_eq]
@[simp] theorem juPerform_slots (ju : Ju) : (juPerform ju).slots = ju.slots := by rw [juPerform_eq]
@[simp] theorem juPerform_unsaved (ju : Ju) : (juPerform ju).unsaved = ju.unsaved := by rw [juPerform_eq]
@[simp] theorem juPerform_waiting (ju : Ju) : (juPerform ju).waiting = ju.waiting := by rw [juPerform_eq]
@[simp] theorem juPerform_offer (ju : Ju) : (juPerform ju).offer = ju.offer := by rw [juPerform_eq]
@[simp] theorem juPerform_serial (ju : Ju) : (juPerform ju).serial = ju.serial := by rw [juPerform_eq]
@[simp] theorem juPerform_retryAt (ju : Ju) : (juPerform ju).retryAt = ju.retryAt := by rw [juPerform_eq]
@[simp] theorem juPerform_reoffers (ju : Ju) : (juPerform ju).reoffers = ju.reoffers := by rw [juPerform_eq]
@[simp] theorem juPerform_rollover (ju : Ju) : (juPerform ju).rollover = ju.rollover := by rw [juPerform_eq]
@[simp] theorem juPerform_markAhead (ju : Ju) : (juPerform ju).markAhead = ju.markAhead := by rw [juPerform_eq]
@[simp] theorem juPerform_openRefused (ju : Ju) : (juPerform ju).openRefused = ju.openRefused := by rw [juPerform_eq]
@[simp] theorem juPerform_withdrawRefused (ju : Ju) : (juPerform ju).withdrawRefused = ju.withdrawRefused := by rw [juPerform_eq]

section ScKick
@[simp] theorem scKick_pending : (scKick s).pending = s.pending := by unfold scKick; split <;> rfl
@[simp] theorem scKick_power : (scKick s).power = s.power := by unfold scKick; split <;> rfl
@[simp] theorem scKick_warned : (scKick s).warned = s.warned := by unfold scKick; split <;> rfl
@[simp] theorem scKick_warnPending : (scKick s).warnPending = s.warnPending := by unfold scKick; split <;> rfl
@[simp] theorem scKick_now : (scKick s).now = s.now := by unfold scKick; split <;> rfl
@[simp] theorem scKick_draws : (scKick s).draws = s.draws := by unfold scKick; split <;> rfl
@[simp] theorem scKick_cfg : (scKick s).cfg = s.cfg := by unfold scKick; split <;> rfl
@[simp] theorem scKick_store : (scKick s).store = s.store := by unfold scKick; split <;> rfl
@[simp] theorem scKick_lc : (scKick s).lc = s.lc := by unfold scKick; split <;> rfl
@[simp] theorem scKick_tiu : (scKick s).tiu = s.tiu := by unfold scKick; split <;> rfl
@[simp] theorem scKick_mt : (scKick s).mt = s.mt := by unfold scKick; split <;> rfl
@[simp] theorem scKick_au : (scKick s).au = s.au := by unfold scKick; split <;> rfl
@[simp] theorem scKick_mu : (scKick s).mu = s.mu := by unfold scKick; split <;> rfl
@[simp] theorem scKick_hc : (scKick s).hc = s.hc := by unfold scKick; split <;> rfl
@[simp] theorem scKick_pump : (scKick s).pump = s.pump := by unfold scKick; split <;> rfl
@[simp] theorem scKick_pbu : (scKick s).pbu = s.pbu := by unfold scKick; split <;> rfl
@[simp] theorem scKick_su : (scKick s).su = s.su := by unfold scKick; split <;> rfl
@[simp] theorem scKick_pp : (scKick s).pp = s.pp := by unfold scKick; split <;> rfl
@[simp] theorem scKick_prove : (scKick s).prove = s.prove := by unfold scKick; split <;> rfl
@[simp] theorem scKick_inspect : (scKick s).inspect = s.inspect := by unfold scKick; split <;> rfl
@[simp] theorem scKick_ju_recs : (scKick s).ju.recs = s.ju.recs := by unfold scKick; split <;> [(dsimp only; split <;> simp); rfl]
@[simp] theorem scKick_ju_counter : (scKick s).ju.counter = s.ju.counter := by unfold scKick; split <;> [(dsimp only; split <;> simp); rfl]
@[simp] theorem scKick_ju_mark : (scKick s).ju.mark = s.ju.mark := by unfold scKick; split <;> [(dsimp only; split <;> simp); rfl]
@[simp] theorem scKick_ju_old : (scKick s).ju.old = s.ju.old := by unfold scKick; split <;> [(dsimp only; split <;> simp); rfl]
@[simp] theorem scKick_ju_slots : (scKick s).ju.slots = s.ju.slots := by unfold scKick; split <;> [(dsimp only; split <;> simp); rfl]
@[simp] theorem scKick_ju_unsaved : (scKick s).ju.unsaved = s.ju.unsaved := by unfold scKick; split <;> [(dsimp only; split <;> simp); rfl]
@[simp] theorem scKick_ju_waiting : (scKick s).ju.waiting = s.ju.waiting := by unfold scKick; split <;> [(dsimp only; split <;> simp); rfl]
@[simp] theorem scKick_ju_offer : (scKick s).ju.offer = s.ju.offer := by unfold scKick; split <;> [(dsimp only; split <;> simp); rfl]
@[simp] theorem scKick_ju_serial : (scKick s).ju.serial = s.ju.serial := by unfold scKick; split <;> [(dsimp only; split <;> simp); rfl]
@[simp] theorem scKick_ju_retryAt : (scKick s).ju.retryAt = s.ju.retryAt := by unfold scKick; split <;> [(dsimp only; split <;> simp); rfl]
@[simp] theorem scKick_ju_reoffers : (scKick s).ju.reoffers = s.ju.reoffers := by unfold scKick; split <;> [(dsimp only; split <;> simp); rfl]
@[simp] theorem scKick_ju_rollover : (scKick s).ju.rollover = s.ju.rollover := by unfold scKick; split <;> [(dsimp only; split <;> simp); rfl]
@[simp] theorem scKick_ju_markAhead : (scKick s).ju.markAhead = s.ju.markAhead := by unfold scKick; split <;> [(dsimp only; split <;> simp); rfl]
@[simp] theorem scKick_ju_openRefused : (scKick s).ju.openRefused = s.ju.openRefused := by unfold scKick; split <;> [(dsimp only; split <;> simp); rfl]
@[simp] theorem scKick_ju_withdrawRefused : (scKick s).ju.withdrawRefused = s.ju.withdrawRefused := by unfold scKick; split <;> [(dsimp only; split <;> simp); rfl]
@[simp] theorem scKick_sc_fault : (scKick s).sc.fault = s.sc.fault := by unfold scKick; split <;> rfl
@[simp] theorem scKick_sc_failures : (scKick s).sc.failures = s.sc.failures := by unfold scKick; split <;> rfl
@[simp] theorem scKick_sc_lastFailed : (scKick s).sc.lastFailed = s.sc.lastFailed := by unfold scKick; split <;> rfl
@[simp] theorem scKick_sc_damaged : (scKick s).sc.damaged = s.sc.damaged := by unfold scKick; split <;> rfl
end ScKick

section ScAsk
variable (r : Requester)
@[simp] theorem scAsk_pending : (scAsk r s).pending = s.pending := by unfold scAsk; split <;> simp
@[simp] theorem scAsk_power : (scAsk r s).power = s.power := by unfold scAsk; split <;> simp
@[simp] theorem scAsk_warned : (scAsk r s).warned = s.warned := by unfold scAsk; split <;> simp
@[simp] theorem scAsk_warnPending : (scAsk r s).warnPending = s.warnPending := by unfold scAsk; split <;> simp
@[simp] theorem scAsk_now : (scAsk r s).now = s.now := by unfold scAsk; split <;> simp
@[simp] theorem scAsk_draws : (scAsk r s).draws = s.draws := by unfold scAsk; split <;> simp
@[simp] theorem scAsk_cfg : (scAsk r s).cfg = s.cfg := by unfold scAsk; split <;> simp
@[simp] theorem scAsk_store : (scAsk r s).store = s.store := by unfold scAsk; split <;> simp
@[simp] theorem scAsk_lc : (scAsk r s).lc = s.lc := by unfold scAsk; split <;> simp
@[simp] theorem scAsk_tiu : (scAsk r s).tiu = s.tiu := by unfold scAsk; split <;> simp
@[simp] theorem scAsk_mt : (scAsk r s).mt = s.mt := by unfold scAsk; split <;> simp
@[simp] theorem scAsk_au : (scAsk r s).au = s.au := by unfold scAsk; split <;> simp
@[simp] theorem scAsk_mu : (scAsk r s).mu = s.mu := by unfold scAsk; split <;> simp
@[simp] theorem scAsk_hc : (scAsk r s).hc = s.hc := by unfold scAsk; split <;> simp
@[simp] theorem scAsk_pump : (scAsk r s).pump = s.pump := by unfold scAsk; split <;> simp
@[simp] theorem scAsk_pbu : (scAsk r s).pbu = s.pbu := by unfold scAsk; split <;> simp
@[simp] theorem scAsk_su : (scAsk r s).su = s.su := by unfold scAsk; split <;> simp
@[simp] theorem scAsk_pp : (scAsk r s).pp = s.pp := by unfold scAsk; split <;> simp
@[simp] theorem scAsk_prove : (scAsk r s).prove = s.prove := by unfold scAsk; split <;> simp
@[simp] theorem scAsk_inspect : (scAsk r s).inspect = s.inspect := by unfold scAsk; split <;> simp
@[simp] theorem scAsk_ju_recs : (scAsk r s).ju.recs = s.ju.recs := by unfold scAsk; split <;> simp
@[simp] theorem scAsk_ju_counter : (scAsk r s).ju.counter = s.ju.counter := by unfold scAsk; split <;> simp
@[simp] theorem scAsk_ju_mark : (scAsk r s).ju.mark = s.ju.mark := by unfold scAsk; split <;> simp
@[simp] theorem scAsk_ju_old : (scAsk r s).ju.old = s.ju.old := by unfold scAsk; split <;> simp
@[simp] theorem scAsk_ju_slots : (scAsk r s).ju.slots = s.ju.slots := by unfold scAsk; split <;> simp
@[simp] theorem scAsk_ju_unsaved : (scAsk r s).ju.unsaved = s.ju.unsaved := by unfold scAsk; split <;> simp
@[simp] theorem scAsk_ju_waiting : (scAsk r s).ju.waiting = s.ju.waiting := by unfold scAsk; split <;> simp
@[simp] theorem scAsk_ju_offer : (scAsk r s).ju.offer = s.ju.offer := by unfold scAsk; split <;> simp
@[simp] theorem scAsk_ju_serial : (scAsk r s).ju.serial = s.ju.serial := by unfold scAsk; split <;> simp
@[simp] theorem scAsk_ju_retryAt : (scAsk r s).ju.retryAt = s.ju.retryAt := by unfold scAsk; split <;> simp
@[simp] theorem scAsk_ju_reoffers : (scAsk r s).ju.reoffers = s.ju.reoffers := by unfold scAsk; split <;> simp
@[simp] theorem scAsk_ju_rollover : (scAsk r s).ju.rollover = s.ju.rollover := by unfold scAsk; split <;> simp
@[simp] theorem scAsk_ju_markAhead : (scAsk r s).ju.markAhead = s.ju.markAhead := by unfold scAsk; split <;> simp
@[simp] theorem scAsk_ju_openRefused : (scAsk r s).ju.openRefused = s.ju.openRefused := by unfold scAsk; split <;> simp
@[simp] theorem scAsk_ju_withdrawRefused : (scAsk r s).ju.withdrawRefused = s.ju.withdrawRefused := by unfold scAsk; split <;> simp
@[simp] theorem scAsk_sc_fault : (scAsk r s).sc.fault = s.sc.fault := by unfold scAsk; split <;> simp
@[simp] theorem scAsk_sc_failures : (scAsk r s).sc.failures = s.sc.failures := by unfold scAsk; split <;> simp
@[simp] theorem scAsk_sc_lastFailed : (scAsk r s).sc.lastFailed = s.sc.lastFailed := by unfold scAsk; split <;> simp
@[simp] theorem scAsk_sc_damaged : (scAsk r s).sc.damaged = s.sc.damaged := by unfold scAsk; split <;> simp
end ScAsk

section AskStock
@[simp] theorem askStock_pending : (askStock s).pending = s.pending := by unfold askStock; split <;> simp
@[simp] theorem askStock_power : (askStock s).power = s.power := by unfold askStock; split <;> simp
@[simp] theorem askStock_warned : (askStock s).warned = s.warned := by unfold askStock; split <;> simp
@[simp] theorem askStock_warnPending : (askStock s).warnPending = s.warnPending := by unfold askStock; split <;> simp
@[simp] theorem askStock_now : (askStock s).now = s.now := by unfold askStock; split <;> simp
@[simp] theorem askStock_draws : (askStock s).draws = s.draws := by unfold askStock; split <;> simp
@[simp] theorem askStock_cfg : (askStock s).cfg = s.cfg := by unfold askStock; split <;> simp
@[simp] theorem askStock_store : (askStock s).store = s.store := by unfold askStock; split <;> simp
@[simp] theorem askStock_lc : (askStock s).lc = s.lc := by unfold askStock; split <;> simp
@[simp] theorem askStock_tiu : (askStock s).tiu = s.tiu := by unfold askStock; split <;> simp
@[simp] theorem askStock_mt : (askStock s).mt = s.mt := by unfold askStock; split <;> simp
@[simp] theorem askStock_au : (askStock s).au = s.au := by unfold askStock; split <;> simp
@[simp] theorem askStock_mu : (askStock s).mu = s.mu := by unfold askStock; split <;> simp
@[simp] theorem askStock_hc : (askStock s).hc = s.hc := by unfold askStock; split <;> simp
@[simp] theorem askStock_pump : (askStock s).pump = s.pump := by unfold askStock; split <;> simp
@[simp] theorem askStock_pbu : (askStock s).pbu = s.pbu := by unfold askStock; split <;> simp
@[simp] theorem askStock_pp : (askStock s).pp = s.pp := by unfold askStock; split <;> simp
@[simp] theorem askStock_prove : (askStock s).prove = s.prove := by unfold askStock; split <;> simp
@[simp] theorem askStock_inspect : (askStock s).inspect = s.inspect := by unfold askStock; split <;> simp
@[simp] theorem askStock_ju_recs : (askStock s).ju.recs = s.ju.recs := by unfold askStock; split <;> simp
@[simp] theorem askStock_ju_counter : (askStock s).ju.counter = s.ju.counter := by unfold askStock; split <;> simp
@[simp] theorem askStock_ju_mark : (askStock s).ju.mark = s.ju.mark := by unfold askStock; split <;> simp
@[simp] theorem askStock_ju_old : (askStock s).ju.old = s.ju.old := by unfold askStock; split <;> simp
@[simp] theorem askStock_ju_slots : (askStock s).ju.slots = s.ju.slots := by unfold askStock; split <;> simp
@[simp] theorem askStock_ju_unsaved : (askStock s).ju.unsaved = s.ju.unsaved := by unfold askStock; split <;> simp
@[simp] theorem askStock_ju_waiting : (askStock s).ju.waiting = s.ju.waiting := by unfold askStock; split <;> simp
@[simp] theorem askStock_ju_offer : (askStock s).ju.offer = s.ju.offer := by unfold askStock; split <;> simp
@[simp] theorem askStock_ju_serial : (askStock s).ju.serial = s.ju.serial := by unfold askStock; split <;> simp
@[simp] theorem askStock_ju_retryAt : (askStock s).ju.retryAt = s.ju.retryAt := by unfold askStock; split <;> simp
@[simp] theorem askStock_ju_reoffers : (askStock s).ju.reoffers = s.ju.reoffers := by unfold askStock; split <;> simp
@[simp] theorem askStock_ju_rollover : (askStock s).ju.rollover = s.ju.rollover := by unfold askStock; split <;> simp
@[simp] theorem askStock_ju_markAhead : (askStock s).ju.markAhead = s.ju.markAhead := by unfold askStock; split <;> simp
@[simp] theorem askStock_ju_openRefused : (askStock s).ju.openRefused = s.ju.openRefused := by unfold askStock; split <;> simp
@[simp] theorem askStock_ju_withdrawRefused : (askStock s).ju.withdrawRefused = s.ju.withdrawRefused := by unfold askStock; split <;> simp
@[simp] theorem askStock_su_book : (askStock s).su.book = s.su.book := by unfold askStock; split <;> simp
@[simp] theorem askStock_su_memory : (askStock s).su.memory = s.su.memory := by unfold askStock; split <;> simp
@[simp] theorem askStock_su_loss : (askStock s).su.loss = s.su.loss := by unfold askStock; split <;> simp
@[simp] theorem askStock_su_lowCount : (askStock s).su.lowCount = s.su.lowCount := by unfold askStock; split <;> simp
@[simp] theorem askStock_su_gauge : (askStock s).su.gauge = s.su.gauge := by unfold askStock; split <;> simp
@[simp] theorem askStock_su_strapUsable : (askStock s).su.strapUsable = s.su.strapUsable := by unfold askStock; split <;> simp
@[simp] theorem askStock_su_lastValid : (askStock s).su.lastValid = s.su.lastValid := by unfold askStock; split <;> simp
@[simp] theorem askStock_su_standard : (askStock s).su.standard = s.su.standard := by unfold askStock; split <;> simp
@[simp] theorem askStock_su_history : (askStock s).su.history = s.su.history := by unfold askStock; split <;> simp
@[simp] theorem askStock_su_lastLevel : (askStock s).su.lastLevel = s.su.lastLevel := by unfold askStock; split <;> simp
@[simp] theorem askStock_su_lastTemp : (askStock s).su.lastTemp = s.su.lastTemp := by unfold askStock; split <;> simp
@[simp] theorem askStock_su_lastMove : (askStock s).su.lastMove = s.su.lastMove := by unfold askStock; split <;> simp
@[simp] theorem askStock_su_proveActive : (askStock s).su.proveActive = s.su.proveActive := by unfold askStock; split <;> simp
@[simp] theorem askStock_su_proveEnd : (askStock s).su.proveEnd = s.su.proveEnd := by unfold askStock; split <;> simp
@[simp] theorem askStock_su_lastCheck : (askStock s).su.lastCheck = s.su.lastCheck := by unfold askStock; split <;> simp
@[simp] theorem askStock_su_deliverySince : (askStock s).su.deliverySince = s.su.deliverySince := by unfold askStock; split <;> simp
@[simp] theorem askStock_su_retryAt : (askStock s).su.retryAt = s.su.retryAt := by unfold askStock; split <;> simp
@[simp] theorem askStock_su_checkSkipped : (askStock s).su.checkSkipped = s.su.checkSkipped := by unfold askStock; split <;> simp
@[simp] theorem askStock_su_lastOutcome : (askStock s).su.lastOutcome = s.su.lastOutcome := by unfold askStock; split <;> simp
@[simp] theorem askStock_su_hours : (askStock s).su.hours = s.su.hours := by unfold askStock; split <;> simp
@[simp] theorem askStock_su_hourEnd : (askStock s).su.hourEnd = s.su.hourEnd := by unfold askStock; split <;> simp
@[simp] theorem askStock_su_claim : (askStock s).su.claim = s.su.claim := by unfold askStock; split <;> simp
@[simp] theorem askStock_su_gaugeBad : (askStock s).su.gaugeBad = s.su.gaugeBad := by unfold askStock; split <;> simp
@[simp] theorem askStock_su_strapClamp : (askStock s).su.strapClamp = s.su.strapClamp := by unfold askStock; split <;> simp
@[simp] theorem askStock_su_badDelivery : (askStock s).su.badDelivery = s.su.badDelivery := by unfold askStock; split <;> simp
@[simp] theorem askStock_su_duplicateDelivery : (askStock s).su.duplicateDelivery = s.su.duplicateDelivery := by unfold askStock; split <;> simp
@[simp] theorem askStock_su_notRecorded : (askStock s).su.notRecorded = s.su.notRecorded := by unfold askStock; split <;> simp
@[simp] theorem askStock_su_notRecordedUntil : (askStock s).su.notRecordedUntil = s.su.notRecordedUntil := by unfold askStock; split <;> simp
@[simp] theorem askStock_su_overCapacity : (askStock s).su.overCapacity = s.su.overCapacity := by unfold askStock; split <;> simp
@[simp] theorem askStock_su_lastDelivery : (askStock s).su.lastDelivery = s.su.lastDelivery := by unfold askStock; split <;> simp
@[simp] theorem askStock_su_settledSeq : (askStock s).su.settledSeq = s.su.settledSeq := by unfold askStock; split <;> simp
@[simp] theorem askStock_sc_fault : (askStock s).sc.fault = s.sc.fault := by unfold askStock; split <;> simp
@[simp] theorem askStock_sc_failures : (askStock s).sc.failures = s.sc.failures := by unfold askStock; split <;> simp
@[simp] theorem askStock_sc_lastFailed : (askStock s).sc.lastFailed = s.sc.lastFailed := by unfold askStock; split <;> simp
@[simp] theorem askStock_sc_damaged : (askStock s).sc.damaged = s.sc.damaged := by unfold askStock; split <;> simp
end AskStock

section AskBanks
@[simp] theorem askBanks_pending : (askBanks s).pending = s.pending := by unfold askBanks; split <;> simp
@[simp] theorem askBanks_power : (askBanks s).power = s.power := by unfold askBanks; split <;> simp
@[simp] theorem askBanks_warned : (askBanks s).warned = s.warned := by unfold askBanks; split <;> simp
@[simp] theorem askBanks_warnPending : (askBanks s).warnPending = s.warnPending := by unfold askBanks; split <;> simp
@[simp] theorem askBanks_now : (askBanks s).now = s.now := by unfold askBanks; split <;> simp
@[simp] theorem askBanks_draws : (askBanks s).draws = s.draws := by unfold askBanks; split <;> simp
@[simp] theorem askBanks_cfg : (askBanks s).cfg = s.cfg := by unfold askBanks; split <;> simp
@[simp] theorem askBanks_store : (askBanks s).store = s.store := by unfold askBanks; split <;> simp
@[simp] theorem askBanks_lc : (askBanks s).lc = s.lc := by unfold askBanks; split <;> simp
@[simp] theorem askBanks_tiu : (askBanks s).tiu = s.tiu := by unfold askBanks; split <;> simp
@[simp] theorem askBanks_mt : (askBanks s).mt = s.mt := by unfold askBanks; split <;> simp
@[simp] theorem askBanks_au : (askBanks s).au = s.au := by unfold askBanks; split <;> simp
@[simp] theorem askBanks_mu : (askBanks s).mu = s.mu := by unfold askBanks; split <;> simp
@[simp] theorem askBanks_hc : (askBanks s).hc = s.hc := by unfold askBanks; split <;> simp
@[simp] theorem askBanks_pump : (askBanks s).pump = s.pump := by unfold askBanks; split <;> simp
@[simp] theorem askBanks_su : (askBanks s).su = s.su := by unfold askBanks; split <;> simp
@[simp] theorem askBanks_pp : (askBanks s).pp = s.pp := by unfold askBanks; split <;> simp
@[simp] theorem askBanks_prove : (askBanks s).prove = s.prove := by unfold askBanks; split <;> simp
@[simp] theorem askBanks_inspect : (askBanks s).inspect = s.inspect := by unfold askBanks; split <;> simp
@[simp] theorem askBanks_ju_recs : (askBanks s).ju.recs = s.ju.recs := by unfold askBanks; split <;> simp
@[simp] theorem askBanks_ju_counter : (askBanks s).ju.counter = s.ju.counter := by unfold askBanks; split <;> simp
@[simp] theorem askBanks_ju_mark : (askBanks s).ju.mark = s.ju.mark := by unfold askBanks; split <;> simp
@[simp] theorem askBanks_ju_old : (askBanks s).ju.old = s.ju.old := by unfold askBanks; split <;> simp
@[simp] theorem askBanks_ju_slots : (askBanks s).ju.slots = s.ju.slots := by unfold askBanks; split <;> simp
@[simp] theorem askBanks_ju_unsaved : (askBanks s).ju.unsaved = s.ju.unsaved := by unfold askBanks; split <;> simp
@[simp] theorem askBanks_ju_waiting : (askBanks s).ju.waiting = s.ju.waiting := by unfold askBanks; split <;> simp
@[simp] theorem askBanks_ju_offer : (askBanks s).ju.offer = s.ju.offer := by unfold askBanks; split <;> simp
@[simp] theorem askBanks_ju_serial : (askBanks s).ju.serial = s.ju.serial := by unfold askBanks; split <;> simp
@[simp] theorem askBanks_ju_retryAt : (askBanks s).ju.retryAt = s.ju.retryAt := by unfold askBanks; split <;> simp
@[simp] theorem askBanks_ju_reoffers : (askBanks s).ju.reoffers = s.ju.reoffers := by unfold askBanks; split <;> simp
@[simp] theorem askBanks_ju_rollover : (askBanks s).ju.rollover = s.ju.rollover := by unfold askBanks; split <;> simp
@[simp] theorem askBanks_ju_markAhead : (askBanks s).ju.markAhead = s.ju.markAhead := by unfold askBanks; split <;> simp
@[simp] theorem askBanks_ju_openRefused : (askBanks s).ju.openRefused = s.ju.openRefused := by unfold askBanks; split <;> simp
@[simp] theorem askBanks_ju_withdrawRefused : (askBanks s).ju.withdrawRefused = s.ju.withdrawRefused := by unfold askBanks; split <;> simp
@[simp] theorem askBanks_pbu_banks : (askBanks s).pbu.banks = s.pbu.banks := by unfold askBanks; split <;> simp
@[simp] theorem askBanks_pbu_load : (askBanks s).pbu.load = s.pbu.load := by unfold askBanks; split <;> simp
@[simp] theorem askBanks_pbu_switchState : (askBanks s).pbu.switchState = s.pbu.switchState := by unfold askBanks; split <;> simp
@[simp] theorem askBanks_pbu_ignoredBook : (askBanks s).pbu.ignoredBook = s.pbu.ignoredBook := by unfold askBanks; split <;> simp
@[simp] theorem askBanks_pbu_badBook : (askBanks s).pbu.badBook = s.pbu.badBook := by unfold askBanks; split <;> simp
@[simp] theorem askBanks_sc_fault : (askBanks s).sc.fault = s.sc.fault := by unfold askBanks; split <;> simp
@[simp] theorem askBanks_sc_failures : (askBanks s).sc.failures = s.sc.failures := by unfold askBanks; split <;> simp
@[simp] theorem askBanks_sc_lastFailed : (askBanks s).sc.lastFailed = s.sc.lastFailed := by unfold askBanks; split <;> simp
@[simp] theorem askBanks_sc_damaged : (askBanks s).sc.damaged = s.sc.damaged := by unfold askBanks; split <;> simp
end AskBanks

section AskJournal
@[simp] theorem askJournal_pending : (askJournal s).pending = s.pending := by unfold askJournal; split <;> simp
@[simp] theorem askJournal_power : (askJournal s).power = s.power := by unfold askJournal; split <;> simp
@[simp] theorem askJournal_warned : (askJournal s).warned = s.warned := by unfold askJournal; split <;> simp
@[simp] theorem askJournal_warnPending : (askJournal s).warnPending = s.warnPending := by unfold askJournal; split <;> simp
@[simp] theorem askJournal_now : (askJournal s).now = s.now := by unfold askJournal; split <;> simp
@[simp] theorem askJournal_draws : (askJournal s).draws = s.draws := by unfold askJournal; split <;> simp
@[simp] theorem askJournal_cfg : (askJournal s).cfg = s.cfg := by unfold askJournal; split <;> simp
@[simp] theorem askJournal_store : (askJournal s).store = s.store := by unfold askJournal; split <;> simp
@[simp] theorem askJournal_lc : (askJournal s).lc = s.lc := by unfold askJournal; split <;> simp
@[simp] theorem askJournal_tiu : (askJournal s).tiu = s.tiu := by unfold askJournal; split <;> simp
@[simp] theorem askJournal_mt : (askJournal s).mt = s.mt := by unfold askJournal; split <;> simp
@[simp] theorem askJournal_au : (askJournal s).au = s.au := by unfold askJournal; split <;> simp
@[simp] theorem askJournal_mu : (askJournal s).mu = s.mu := by unfold askJournal; split <;> simp
@[simp] theorem askJournal_hc : (askJournal s).hc = s.hc := by unfold askJournal; split <;> simp
@[simp] theorem askJournal_pump : (askJournal s).pump = s.pump := by unfold askJournal; split <;> simp
@[simp] theorem askJournal_pbu : (askJournal s).pbu = s.pbu := by unfold askJournal; split <;> simp
@[simp] theorem askJournal_su : (askJournal s).su = s.su := by unfold askJournal; split <;> simp
@[simp] theorem askJournal_pp : (askJournal s).pp = s.pp := by unfold askJournal; split <;> simp
@[simp] theorem askJournal_prove : (askJournal s).prove = s.prove := by unfold askJournal; split <;> simp
@[simp] theorem askJournal_inspect : (askJournal s).inspect = s.inspect := by unfold askJournal; split <;> simp
@[simp] theorem askJournal_ju_recs : (askJournal s).ju.recs = s.ju.recs := by unfold askJournal; split <;> simp
@[simp] theorem askJournal_ju_counter : (askJournal s).ju.counter = s.ju.counter := by unfold askJournal; split <;> simp
@[simp] theorem askJournal_ju_mark : (askJournal s).ju.mark = s.ju.mark := by unfold askJournal; split <;> simp
@[simp] theorem askJournal_ju_old : (askJournal s).ju.old = s.ju.old := by unfold askJournal; split <;> simp
@[simp] theorem askJournal_ju_slots : (askJournal s).ju.slots = s.ju.slots := by unfold askJournal; split <;> simp
@[simp] theorem askJournal_ju_unsaved : (askJournal s).ju.unsaved = s.ju.unsaved := by unfold askJournal; split <;> simp
@[simp] theorem askJournal_ju_waiting : (askJournal s).ju.waiting = s.ju.waiting := by unfold askJournal; split <;> simp
@[simp] theorem askJournal_ju_offer : (askJournal s).ju.offer = s.ju.offer := by unfold askJournal; split <;> simp
@[simp] theorem askJournal_ju_serial : (askJournal s).ju.serial = s.ju.serial := by unfold askJournal; split <;> simp
@[simp] theorem askJournal_ju_retryAt : (askJournal s).ju.retryAt = s.ju.retryAt := by unfold askJournal; split <;> simp
@[simp] theorem askJournal_ju_reoffers : (askJournal s).ju.reoffers = s.ju.reoffers := by unfold askJournal; split <;> simp
@[simp] theorem askJournal_ju_rollover : (askJournal s).ju.rollover = s.ju.rollover := by unfold askJournal; split <;> simp
@[simp] theorem askJournal_ju_markAhead : (askJournal s).ju.markAhead = s.ju.markAhead := by unfold askJournal; split <;> simp
@[simp] theorem askJournal_ju_openRefused : (askJournal s).ju.openRefused = s.ju.openRefused := by unfold askJournal; split <;> simp
@[simp] theorem askJournal_ju_withdrawRefused : (askJournal s).ju.withdrawRefused = s.ju.withdrawRefused := by unfold askJournal; split <;> simp
@[simp] theorem askJournal_sc_fault : (askJournal s).sc.fault = s.sc.fault := by unfold askJournal; split <;> simp
@[simp] theorem askJournal_sc_failures : (askJournal s).sc.failures = s.sc.failures := by unfold askJournal; split <;> simp
@[simp] theorem askJournal_sc_lastFailed : (askJournal s).sc.lastFailed = s.sc.lastFailed := by unfold askJournal; split <;> simp
@[simp] theorem askJournal_sc_damaged : (askJournal s).sc.damaged = s.sc.damaged := by unfold askJournal; split <;> simp
end AskJournal

section WriteListAdd
variable (e : WriteEntry)
@[simp] theorem writeListAdd_pending : (writeListAdd e s).pending = s.pending := by simp [writeListAdd]
@[simp] theorem writeListAdd_power : (writeListAdd e s).power = s.power := by simp [writeListAdd]
@[simp] theorem writeListAdd_warned : (writeListAdd e s).warned = s.warned := by simp [writeListAdd]
@[simp] theorem writeListAdd_warnPending : (writeListAdd e s).warnPending = s.warnPending := by simp [writeListAdd]
@[simp] theorem writeListAdd_now : (writeListAdd e s).now = s.now := by simp [writeListAdd]
@[simp] theorem writeListAdd_draws : (writeListAdd e s).draws = s.draws := by simp [writeListAdd]
@[simp] theorem writeListAdd_cfg : (writeListAdd e s).cfg = s.cfg := by simp [writeListAdd]
@[simp] theorem writeListAdd_store : (writeListAdd e s).store = s.store := by simp [writeListAdd]
@[simp] theorem writeListAdd_lc : (writeListAdd e s).lc = s.lc := by simp [writeListAdd]
@[simp] theorem writeListAdd_tiu : (writeListAdd e s).tiu = s.tiu := by simp [writeListAdd]
@[simp] theorem writeListAdd_mt : (writeListAdd e s).mt = s.mt := by simp [writeListAdd]
@[simp] theorem writeListAdd_au : (writeListAdd e s).au = s.au := by simp [writeListAdd]
@[simp] theorem writeListAdd_mu : (writeListAdd e s).mu = s.mu := by simp [writeListAdd]
@[simp] theorem writeListAdd_hc : (writeListAdd e s).hc = s.hc := by simp [writeListAdd]
@[simp] theorem writeListAdd_pump : (writeListAdd e s).pump = s.pump := by simp [writeListAdd]
@[simp] theorem writeListAdd_pbu : (writeListAdd e s).pbu = s.pbu := by simp [writeListAdd]
@[simp] theorem writeListAdd_su : (writeListAdd e s).su = s.su := by simp [writeListAdd]
@[simp] theorem writeListAdd_pp : (writeListAdd e s).pp = s.pp := by simp [writeListAdd]
@[simp] theorem writeListAdd_prove : (writeListAdd e s).prove = s.prove := by simp [writeListAdd]
@[simp] theorem writeListAdd_inspect : (writeListAdd e s).inspect = s.inspect := by simp [writeListAdd]
@[simp] theorem writeListAdd_ju_recs : (writeListAdd e s).ju.recs = s.ju.recs := by simp [writeListAdd]
@[simp] theorem writeListAdd_ju_counter : (writeListAdd e s).ju.counter = s.ju.counter := by simp [writeListAdd]
@[simp] theorem writeListAdd_ju_mark : (writeListAdd e s).ju.mark = s.ju.mark := by simp [writeListAdd]
@[simp] theorem writeListAdd_ju_old : (writeListAdd e s).ju.old = s.ju.old := by simp [writeListAdd]
@[simp] theorem writeListAdd_ju_slots : (writeListAdd e s).ju.slots = s.ju.slots := by simp [writeListAdd]
@[simp] theorem writeListAdd_ju_unsaved : (writeListAdd e s).ju.unsaved = s.ju.unsaved := by simp [writeListAdd]
@[simp] theorem writeListAdd_ju_waiting : (writeListAdd e s).ju.waiting = s.ju.waiting := by simp [writeListAdd]
@[simp] theorem writeListAdd_ju_offer : (writeListAdd e s).ju.offer = s.ju.offer := by simp [writeListAdd]
@[simp] theorem writeListAdd_ju_serial : (writeListAdd e s).ju.serial = s.ju.serial := by simp [writeListAdd]
@[simp] theorem writeListAdd_ju_retryAt : (writeListAdd e s).ju.retryAt = s.ju.retryAt := by simp [writeListAdd]
@[simp] theorem writeListAdd_ju_reoffers : (writeListAdd e s).ju.reoffers = s.ju.reoffers := by simp [writeListAdd]
@[simp] theorem writeListAdd_ju_rollover : (writeListAdd e s).ju.rollover = s.ju.rollover := by simp [writeListAdd]
@[simp] theorem writeListAdd_ju_markAhead : (writeListAdd e s).ju.markAhead = s.ju.markAhead := by simp [writeListAdd]
@[simp] theorem writeListAdd_ju_openRefused : (writeListAdd e s).ju.openRefused = s.ju.openRefused := by simp [writeListAdd]
@[simp] theorem writeListAdd_ju_withdrawRefused : (writeListAdd e s).ju.withdrawRefused = s.ju.withdrawRefused := by simp [writeListAdd]
@[simp] theorem writeListAdd_sc_fault : (writeListAdd e s).sc.fault = s.sc.fault := by simp [writeListAdd]
@[simp] theorem writeListAdd_sc_failures : (writeListAdd e s).sc.failures = s.sc.failures := by simp [writeListAdd]
@[simp] theorem writeListAdd_sc_lastFailed : (writeListAdd e s).sc.lastFailed = s.sc.lastFailed := by simp [writeListAdd]
@[simp] theorem writeListAdd_sc_damaged : (writeListAdd e s).sc.damaged = s.sc.damaged := by simp [writeListAdd]
end WriteListAdd

section TakeRecord
variable (body : RecBody)
@[simp] theorem takeRecord_pending : (takeRecord body s).pending = s.pending := by simp [takeRecord, numberRecord]
@[simp] theorem takeRecord_power : (takeRecord body s).power = s.power := by simp [takeRecord, numberRecord]
@[simp] theorem takeRecord_warned : (takeRecord body s).warned = s.warned := by simp [takeRecord, numberRecord]
@[simp] theorem takeRecord_warnPending : (takeRecord body s).warnPending = s.warnPending := by simp [takeRecord, numberRecord]
@[simp] theorem takeRecord_now : (takeRecord body s).now = s.now := by simp [takeRecord, numberRecord]
@[simp] theorem takeRecord_draws : (takeRecord body s).draws = s.draws := by simp [takeRecord, numberRecord]
@[simp] theorem takeRecord_cfg : (takeRecord body s).cfg = s.cfg := by simp [takeRecord, numberRecord]
@[simp] theorem takeRecord_store : (takeRecord body s).store = s.store := by simp [takeRecord, numberRecord]
@[simp] theorem takeRecord_lc : (takeRecord body s).lc = s.lc := by simp [takeRecord, numberRecord]
@[simp] theorem takeRecord_tiu : (takeRecord body s).tiu = s.tiu := by simp [takeRecord, numberRecord]
@[simp] theorem takeRecord_mt : (takeRecord body s).mt = s.mt := by simp [takeRecord, numberRecord]
@[simp] theorem takeRecord_au : (takeRecord body s).au = s.au := by simp [takeRecord, numberRecord]
@[simp] theorem takeRecord_mu : (takeRecord body s).mu = s.mu := by simp [takeRecord, numberRecord]
@[simp] theorem takeRecord_hc : (takeRecord body s).hc = s.hc := by simp [takeRecord, numberRecord]
@[simp] theorem takeRecord_pump : (takeRecord body s).pump = s.pump := by simp [takeRecord, numberRecord]
@[simp] theorem takeRecord_pbu : (takeRecord body s).pbu = s.pbu := by simp [takeRecord, numberRecord]
@[simp] theorem takeRecord_su : (takeRecord body s).su = s.su := by simp [takeRecord, numberRecord]
@[simp] theorem takeRecord_pp : (takeRecord body s).pp = s.pp := by simp [takeRecord, numberRecord]
@[simp] theorem takeRecord_prove : (takeRecord body s).prove = s.prove := by simp [takeRecord, numberRecord]
@[simp] theorem takeRecord_inspect : (takeRecord body s).inspect = s.inspect := by simp [takeRecord, numberRecord]
@[simp] theorem takeRecord_ju_mark : (takeRecord body s).ju.mark = s.ju.mark := by simp [takeRecord, numberRecord]
@[simp] theorem takeRecord_ju_old : (takeRecord body s).ju.old = s.ju.old := by simp [takeRecord, numberRecord]
@[simp] theorem takeRecord_ju_slots : (takeRecord body s).ju.slots = s.ju.slots := by simp [takeRecord, numberRecord]
@[simp] theorem takeRecord_ju_unsaved : (takeRecord body s).ju.unsaved = s.ju.unsaved := by simp [takeRecord, numberRecord]
@[simp] theorem takeRecord_ju_waiting : (takeRecord body s).ju.waiting = s.ju.waiting := by simp [takeRecord, numberRecord]
@[simp] theorem takeRecord_ju_offer : (takeRecord body s).ju.offer = s.ju.offer := by simp [takeRecord, numberRecord]
@[simp] theorem takeRecord_ju_serial : (takeRecord body s).ju.serial = s.ju.serial := by simp [takeRecord, numberRecord]
@[simp] theorem takeRecord_ju_retryAt : (takeRecord body s).ju.retryAt = s.ju.retryAt := by simp [takeRecord, numberRecord]
@[simp] theorem takeRecord_ju_reoffers : (takeRecord body s).ju.reoffers = s.ju.reoffers := by simp [takeRecord, numberRecord]
@[simp] theorem takeRecord_ju_rollover : (takeRecord body s).ju.rollover = s.ju.rollover := by simp [takeRecord, numberRecord]
@[simp] theorem takeRecord_ju_markAhead : (takeRecord body s).ju.markAhead = s.ju.markAhead := by simp [takeRecord, numberRecord]
@[simp] theorem takeRecord_ju_openRefused : (takeRecord body s).ju.openRefused = s.ju.openRefused := by simp [takeRecord, numberRecord]
@[simp] theorem takeRecord_ju_withdrawRefused : (takeRecord body s).ju.withdrawRefused = s.ju.withdrawRefused := by simp [takeRecord, numberRecord]
@[simp] theorem takeRecord_sc_fault : (takeRecord body s).sc.fault = s.sc.fault := by simp [takeRecord, numberRecord]
@[simp] theorem takeRecord_sc_failures : (takeRecord body s).sc.failures = s.sc.failures := by simp [takeRecord, numberRecord]
@[simp] theorem takeRecord_sc_lastFailed : (takeRecord body s).sc.lastFailed = s.sc.lastFailed := by simp [takeRecord, numberRecord]
@[simp] theorem takeRecord_sc_damaged : (takeRecord body s).sc.damaged = s.sc.damaged := by simp [takeRecord, numberRecord]
@[simp] theorem takeRecord_ju_counter : (takeRecord body s).ju.counter = s.ju.counter + 1 := by
  simp [takeRecord, numberRecord]
@[simp] theorem takeRecord_ju_recs : (takeRecord body s).ju.recs = s.ju.recs ++
    [{ number := s.ju.counter + 1, time := s.lc.clock, sure := s.lc.sure, body := body, state := .opened,
       offers := 0, dueAt := none }] := by simp [takeRecord, numberRecord]
end TakeRecord

end Sys2Proof.Machine
end

