-- ==== Sys2Proof/WellFormed.lean ====
section
/-! DEFINITION. Which command terms are well formed: an operand stays in the range its line can bring. A
meaning is total all the same; the checks say which terms stand for something that can arrive. -/

namespace Sys2Proof

/-- The configuration memory is read to an all-zero first word or to 512 pairs (R197), so what the command
brings must hold one of the two. -/
def configComplete (pairs : List ConfigPair) : Bool :=
  pairs.any (fun p => p.first == 0) || decide (512 ≤ pairs.length)

/-- A journal position of a named area is 0 to 1,023 (R143). -/
def AreaName.wf : AreaName → Bool
  | .ringPosition n => decide (n < 1024)
  | _ => true

/-- The body of a PRICE frame has the form its fragment flags ask for (R212). -/
def priceBodyMatches (hd : Header) : PriceBody → Bool
  | .begins _ _ _ => hd.beginFlag
  | .entries _ _ => !hd.beginFlag && !hd.endFlag
  | .ends _ => !hd.beginFlag && hd.endFlag

/-- A DONE answer brings no bytes or the sixteen of a fragment (section 2.1, R29). -/
def HeadResult.wf : HeadResult → Bool
  | .done bytes => decide (bytes.length = 0) || decide (bytes.length = 16)
  | _ => true

/-- The checks of a command's operands. -/
def Instr.wf : Instr → Bool
  | .supplyUp memory failing =>
    (match memory with | none => true | some pairs => configComplete pairs) && failing.all AreaName.wf
  | .answer _ _ draws => decide (draws.length = 1) || decide (draws.length = 2)
  | .record _ _ _ chunk => decide (1 ≤ chunk.length) && decide (chunk.length ≤ 19)
  | .price hd _ body => priceBodyMatches hd body
  | .headAnswer _ _ _ result => result.wf
  | .digit _ d => decide (d ≤ 9)
  | .claimsListEntryExpiry station => decide (1 ≤ station) && decide (station ≤ 47)
  | .reofferDue number => decide (1 ≤ number) && decide (number ≤ max32)
  | .startupRelease _ _ _ | .powerFailWarning | .idleGap | .backoffSlot | .carrierSenseActive
  | .transmissionEnd | .recordSpacingIdleTotal | .badFrame _ | .hello _ _ _ | .status _ _ | .draw _ _ _
  | .query _ _ _ | .mark _ _ _ _ | .delivery _ _ _ _ _ | .listenTime | .settleTime | .isolationTime
  | .statusPeriod | .reassemblyTimeLimit | .siteClockCount | .clockHoldEnd | .clockStoringPeriod
  | .headCommandTimeout _ | .keyPresented _ _ | .keyRemoved _ | .hoseKey _ _ | .enter _ | .clear _
  | .stop _ | .prove _ | .ack _ | .adopt _ | .inspect _ | .panelStatus _ _ | .panelBad _ | .panelAbsent
  | .displayRecordSend _ | .promptExpiry | .pulse _ _ | .flowWindowEnd _ _ | .nozzleLift _ | .nozzleHang _
  | .readRequestSecond _ | .tagReadTimeLimit _ | .keyWaitTimeLimit _ | .querySendLimit _
  | .queryAnswerTime _ | .noFlowTimer _ | .idleTimer _ | .probeSecond _ | .drainEnd _ | .drainTimeLimit _
  | .runOnTimer | .budgetFall | .proveSelectTime | .proveSizeTime | .proveReadingTime
  | .inspectPageTimeout | .offerRetryWait | .storeWriteEnd _ | .gaugeReading _ _ _ | .gaugeTimeout
  | .checkRetryWait | .hourEnd | .channelBEdge _ _ | .carrierSenseInactive _ | .supplyFailure => true

end Sys2Proof
end

