-- ==== Sys2Proof/Laws/PerInstr.lean ====
section
/-! SUPPORT. A statement for every command, made command by command: a well-formed frame command stands for a
frame of a length that its kind allows. -/

namespace Sys2Proof.Laws.FrameLengths

open Sys2Proof.Machine

/-- The header and body of the frame that a command brings, when it brings one as its fields. -/
def frameOf : Instr → Option (Header × FrameBody)
  | .hello hd startNumber product => some (hd, .hello startNumber product)
  | .status hd body => some (hd, .status body)
  | .draw hd machine d => some (hd, .draw machine d)
  | .query hd machine window => some (hd, .query machine window)
  | .answer hd machine draws => some (hd, .answer machine draws)
  | .record hd number index chunk => some (hd, .record number index chunk)
  | .mark hd target number time => some (hd, .mark target number time)
  | .price hd index body => some (hd, .price index body)
  | .delivery hd target number volume time => some (hd, .delivery target number volume time)
  | _ => none

/-- A well-formed command that brings a frame brings one of an allowed length (R212), of at most 28 frame bytes
(R13). -/
def Statement (i : Instr) : Prop :=
  i.wf = true → ∀ hd body, frameOf i = some (hd, body) →
    fieldsLengthOk hd body = true ∧ (frameBytes hd body).length ≤ 28

/-- A command that brings no frame. -/
theorem ofNone {i : Instr} (hi : frameOf i = none) : Statement i := by
  intro _ hd body hf
  rw [hi] at hf
  exact absurd hf (by simp)

/-- A command that brings the frame given. -/
theorem ofSome {i : Instr} {hd : Header} {body : FrameBody} (hi : frameOf i = some (hd, body))
    (hb : i.wf = true → fieldsLengthOk hd body = true ∧ (frameBytes hd body).length ≤ 28) : Statement i := by
  intro hw hd' body' hf
  rw [hi] at hf
  cases hf
  exact hb hw

theorem supplyUp (memory : Option (List ConfigPair)) (failing : List AreaName) :
    Statement (.supplyUp memory failing) := ofNone rfl

theorem startupRelease (outA outB carrier : Bool) :
    Statement (.startupRelease outA outB carrier) := ofNone rfl

theorem powerFailWarning : Statement .powerFailWarning := ofNone rfl

theorem idleGap : Statement .idleGap := ofNone rfl

theorem backoffSlot : Statement .backoffSlot := ofNone rfl

theorem carrierSenseActive : Statement .carrierSenseActive := ofNone rfl

theorem transmissionEnd : Statement .transmissionEnd := ofNone rfl

theorem recordSpacingIdleTotal : Statement .recordSpacingIdleTotal := ofNone rfl

theorem badFrame (line : List Byte) : Statement (.badFrame line) := ofNone rfl

theorem hello (hd : Header) (startNumber : BitVec 16) (product : Byte) : Statement (.hello hd startNumber product) :=
  ofSome rfl (fun _ =>
    ⟨by simp [fieldsLengthOk, bodyLengthAllowed, kindCode, bodyBytes], by simp [bodyBytes]⟩)

theorem status (hd : Header) (body : StatusBody) : Statement (.status hd body) :=
  ofSome rfl (fun _ =>
    ⟨by simp [fieldsLengthOk, bodyLengthAllowed, kindCode, bodyBytes], by simp [bodyBytes]⟩)

theorem draw (hd : Header) (machine : BitVec 24) (d : WireDraw) : Statement (.draw hd machine d) :=
  ofSome rfl (fun _ =>
    ⟨by simp [fieldsLengthOk, bodyLengthAllowed, kindCode, bodyBytes], by simp [bodyBytes]⟩)

theorem query (hd : Header) (machine : BitVec 24) (window : Byte) : Statement (.query hd machine window) :=
  ofSome rfl (fun _ =>
    ⟨by simp [fieldsLengthOk, bodyLengthAllowed, kindCode, bodyBytes], by simp [bodyBytes]⟩)

theorem answer (hd : Header) (machine : BitVec 24) (draws : List WireDraw) : Statement (.answer hd machine draws) :=
  ofSome rfl (fun hw => by
    simp only [Instr.wf, Bool.or_eq_true, decide_eq_true_eq] at hw
    match draws, hw with
    | [_], _ => exact ⟨by simp [fieldsLengthOk, bodyLengthAllowed, kindCode, bodyBytes], by simp [bodyBytes]⟩
    | [_, _], _ => exact ⟨by simp [fieldsLengthOk, bodyLengthAllowed, kindCode, bodyBytes], by simp [bodyBytes]⟩)

theorem record (hd : Header) (number : BitVec 32) (index : Byte) (chunk : List Byte) : Statement (.record hd number index chunk) :=
  ofSome rfl (fun hw => by
    simp only [Instr.wf, Bool.and_eq_true, decide_eq_true_eq] at hw
    constructor
    · simp [fieldsLengthOk, bodyLengthAllowed, kindCode, bodyBytes]; omega
    · simp [bodyBytes]; omega)

theorem mark (hd : Header) (target : Byte) (number : BitVec 32) (time : BitVec 32) : Statement (.mark hd target number time) :=
  ofSome rfl (fun _ =>
    ⟨by simp [fieldsLengthOk, bodyLengthAllowed, kindCode, bodyBytes], by simp [bodyBytes]⟩)

theorem price (hd : Header) (index : Byte) (body : PriceBody) : Statement (.price hd index body) :=
  ofSome rfl (fun hw => ⟨by
    cases body <;> exact hw, by cases body <;> simp [bodyBytes, priceBodyBytes]⟩)

theorem delivery (hd : Header) (target : Byte) (number : BitVec 16) (volume : BitVec 24) (time : BitVec 32) : Statement (.delivery hd target number volume time) :=
  ofSome rfl (fun _ =>
    ⟨by simp [fieldsLengthOk, bodyLengthAllowed, kindCode, bodyBytes], by simp [bodyBytes]⟩)

theorem listenTime : Statement .listenTime := ofNone rfl

theorem settleTime : Statement .settleTime := ofNone rfl

theorem isolationTime : Statement .isolationTime := ofNone rfl

theorem statusPeriod : Statement .statusPeriod := ofNone rfl

theorem reassemblyTimeLimit : Statement .reassemblyTimeLimit := ofNone rfl

theorem siteClockCount : Statement .siteClockCount := ofNone rfl

theorem clockHoldEnd : Statement .clockHoldEnd := ofNone rfl

theorem clockStoringPeriod : Statement .clockStoringPeriod := ofNone rfl

theorem claimsListEntryExpiry (station : Nat) : Statement (.claimsListEntryExpiry station) := ofNone rfl

theorem headAnswer (h : Hose) (checkOk : Bool) (number : Byte) (result : HeadResult) :
    Statement (.headAnswer h checkOk number result) := ofNone rfl

theorem headCommandTimeout (h : Hose) : Statement (.headCommandTimeout h) := ofNone rfl

theorem keyPresented (num : Byte) (operator : BitVec 32) :
    Statement (.keyPresented num operator) := ofNone rfl

theorem keyRemoved (num : Byte) : Statement (.keyRemoved num) := ofNone rfl

theorem digit (num : Byte) (d : Nat) : Statement (.digit num d) := ofNone rfl

theorem hoseKey (num : Byte) (h : Hose) : Statement (.hoseKey num h) := ofNone rfl

theorem enter (num : Byte) : Statement (.enter num) := ofNone rfl

theorem clear (num : Byte) : Statement (.clear num) := ofNone rfl

theorem stop (num : Byte) : Statement (.stop num) := ofNone rfl

theorem prove (num : Byte) : Statement (.prove num) := ofNone rfl

theorem ack (num : Byte) : Statement (.ack num) := ofNone rfl

theorem adopt (num : Byte) : Statement (.adopt num) := ofNone rfl

theorem inspect (num : Byte) : Statement (.inspect num) := ofNone rfl

theorem panelStatus (num : Byte) (page : Byte) : Statement (.panelStatus num page) := ofNone rfl

theorem panelBad (message : List Byte) : Statement (.panelBad message) := ofNone rfl

theorem panelAbsent : Statement .panelAbsent := ofNone rfl

theorem displayRecordSend (target : DisplayTarget) : Statement (.displayRecordSend target) := ofNone rfl

theorem promptExpiry : Statement .promptExpiry := ofNone rfl

theorem pulse (h : Hose) (levelB : Bool) : Statement (.pulse h levelB) := ofNone rfl

theorem flowWindowEnd (h : Hose) (sample : TempSample) : Statement (.flowWindowEnd h sample) := ofNone rfl

theorem nozzleLift (h : Hose) : Statement (.nozzleLift h) := ofNone rfl

theorem nozzleHang (h : Hose) : Statement (.nozzleHang h) := ofNone rfl

theorem readRequestSecond (h : Hose) : Statement (.readRequestSecond h) := ofNone rfl

theorem tagReadTimeLimit (h : Hose) : Statement (.tagReadTimeLimit h) := ofNone rfl

theorem keyWaitTimeLimit (h : Hose) : Statement (.keyWaitTimeLimit h) := ofNone rfl

theorem querySendLimit (h : Hose) : Statement (.querySendLimit h) := ofNone rfl

theorem queryAnswerTime (h : Hose) : Statement (.queryAnswerTime h) := ofNone rfl

theorem noFlowTimer (h : Hose) : Statement (.noFlowTimer h) := ofNone rfl

theorem idleTimer (h : Hose) : Statement (.idleTimer h) := ofNone rfl

theorem probeSecond (h : Hose) : Statement (.probeSecond h) := ofNone rfl

theorem drainEnd (h : Hose) : Statement (.drainEnd h) := ofNone rfl

theorem drainTimeLimit (h : Hose) : Statement (.drainTimeLimit h) := ofNone rfl

theorem runOnTimer : Statement .runOnTimer := ofNone rfl

theorem budgetFall : Statement .budgetFall := ofNone rfl

theorem proveSelectTime : Statement .proveSelectTime := ofNone rfl

theorem proveSizeTime : Statement .proveSizeTime := ofNone rfl

theorem proveReadingTime : Statement .proveReadingTime := ofNone rfl

theorem inspectPageTimeout : Statement .inspectPageTimeout := ofNone rfl

theorem offerRetryWait : Statement .offerRetryWait := ofNone rfl

theorem reofferDue (number : Nat) : Statement (.reofferDue number) := ofNone rfl

theorem storeWriteEnd (good : Bool) : Statement (.storeWriteEnd good) := ofNone rfl

theorem gaugeReading (fault : Bool) (level : Nat) (temperature : Int) :
    Statement (.gaugeReading fault level temperature) := ofNone rfl

theorem gaugeTimeout : Statement .gaugeTimeout := ofNone rfl

theorem checkRetryWait : Statement .checkRetryWait := ofNone rfl

theorem hourEnd : Statement .hourEnd := ofNone rfl

theorem channelBEdge (h : Hose) (rising : Bool) : Statement (.channelBEdge h rising) := ofNone rfl

theorem carrierSenseInactive (unjudged : List Byte) : Statement (.carrierSenseInactive unjudged) := ofNone rfl

theorem supplyFailure : Statement .supplyFailure := ofNone rfl

end Sys2Proof.Laws.FrameLengths
end

