-- ==== Sys2Proof/Laws/Shared.lean ====
section
/-! SUPPORT. What the shared operations of the store's areas, the journal's records, the pump and the prove can do,
for the provers to cite. -/

namespace Sys2Proof.Machine

variable {s : State}

/-! ### Areas (R200, R211) -/

/-- A completed write reads back as its contents. -/
@[simp] theorem Area.read_put {α : Type} (layout : α → List Byte) (x : α) :
    (Area.put layout x).read layout = some x := by simp [Area.put, Area.read]

/-- A completed write passes its area check. -/
@[simp] theorem Area.fails_put {α : Type} (layout : α → List Byte) (x : α) :
    (Area.put layout x).fails layout = false := by simp [Area.put, Area.fails]

/-- An area whose check fails reads as empty. -/
theorem Area.read_of_fails {α : Type} {layout : α → List Byte} {a : Area α} (h : a.fails layout = true) :
    a.read layout = none := by
  cases a with
  | neverWritten => rfl
  | damaged => rfl
  | written x c =>
    have hc : ¬ c = checkValue (layout x) := by simpa [Area.fails] using h
    simp [Area.read, hc]

/-! ### DISPENSE records (R145 to R149) -/

@[simp] theorem JRec.updDispense_number (r : JRec) (f : DispenseRec → DispenseRec) :
    (r.updDispense f).number = r.number := by
  unfold JRec.updDispense; split <;> rfl

@[simp] theorem JRec.updDispense_state (r : JRec) (f : DispenseRec → DispenseRec) :
    (r.updDispense f).state = r.state := by
  unfold JRec.updDispense; split <;> rfl

/-- Two changes of a DISPENSE record are one. -/
theorem JRec.updDispense_comp (r : JRec) (f g : DispenseRec → DispenseRec) :
    (r.updDispense f).updDispense g = r.updDispense (fun d => g (f d)) := by
  rcases r with ⟨n, t, u, b, st, o, d⟩
  cases b <;> rfl

/-! ### The pump (R124) -/

/-- The pump settles or nothing changes. -/
theorem pumpSettle_cases : pumpSettle s = s ∨
    pumpSettle s = { s with pump := { s.pump with state := .runOn, runOnAt := some (s.now + sec 5) } } := by
  unfold pumpSettle
  split
  · exact .inr rfl
  · exact .inl rfl

/-- The pump settling changes the pump alone. -/
theorem pumpSettle_eq : pumpSettle s = { s with pump := (pumpSettle s).pump } := by
  rcases pumpSettle_cases (s := s) with h | h <;> rw [h]

/-- The pump settling leaves the pump-run output as it is. -/
@[simp] theorem pumpRun_pumpSettle : pumpRun (pumpSettle s) = pumpRun s := by
  unfold pumpSettle
  split
  · rename_i h; simp [pumpRun, h.1]
  · rfl

/-! ### The prove (R136, R137) -/

/-- The end of a prove leaves only a factor write that was asked for. -/
@[simp] theorem proveNone_prove :
    (proveNone s).prove = { Prove.initial with factorWrite := s.prove.factorWrite } := rfl

/-- After the end of a prove SU counts none as active. -/
@[simp] theorem proveNone_proveActive : (proveNone s).su.proveActive = false := by
  cases h : s.su.proveActive <;> simp [proveNone, h]

end Sys2Proof.Machine
end

