-- ==== Sys2Proof/Tests/Slice0.lean ====
section
/-! SUPPORT. Tests: ill-formed terms refused, the worked cases of the spec, and for each statement with
hypotheses a state and operands that meet them. -/

namespace Sys2Proof.Tests

open Sys2Proof Sys2Proof.Machine

/-! ### Small states -/

/-- A released bowser 17, JOINED with start number 23,073, its clock at 5,000 and nothing under way. -/
def up : State :=
  { State.unpowered [] 0 Store.new with
    power := .released, lc := Lc.initial .joined 23073 false 5000,
    cfg := { Cfg.initial with params := { Params.default with station := some 17 }, configured := true } }

/-- `up` with a change to its link. -/
def upLc (f : Lc → Lc) : State := { up with lc := f up.lc }

/-- `up` with a change to the HC of hose A. -/
def upA (f : Hc → Hc) : State := up.updHc .a f

/-- The header of a whole frame of a station. -/
def from' (station : Nat) : Header := wholeHeader station

/-- `up` with its panel present. -/
def panelUp : State := { up with pp := { up.pp with present := true } }

/-- The same with a supervisor's key in the reader. -/
def keyUp : State := { up with pp := { up.pp with present := true, key := some 9, authority := true } }

/-- An open billed dispense of band 3 at 32.5 °C (the worked case of three pulses). -/
def metering : MuDispense :=
  { Mu.opening up.mu.a false with band := 3, theta := 325, factors := ⟨100000, 100000, 100240, 100315⟩ }

/-- A DISPENSE record as AU opens it. -/
def openDispense : DispenseRec :=
  { hose := .a, machine := 77031, cls := 2, costCentre := 4410, operator := none, limit := 50000,
    binding := .preset, blind := false, book := 208, price := 1849, unpriced := false, accGross := 0,
    accStd := 0, accOverrun := 0, stopNotice := false, adjustment := 0, close := none }

/-- Hose A in FLOWING with its nozzle out, its stage slow and record 1 open. -/
def flowing : State :=
  { upA (fun hc => { hc with state := .flowing, nozzleOut := true, stage := .slow, joined := true,
                             limit := some 50000, machine := some 77031, idleAt := some (sec 60),
                             probeAt := some (sec 1) }) with
    mu := ⟨{ up.mu.a with dispense := some metering }, up.mu.b⟩,
    pump := { up.pump with state := .running, level := 1, fallAt := some (sec 100) },
    ju := { up.ju with
      counter := 1, slots := ⟨some (.numbered 1), none⟩,
      recs := [JRec.mk 1 5000 false (.dispense openDispense) .opened 0 none] } }

/-- A HELLO waiting at the head of the queue with a countdown. -/
def waiting (left : Nat) (counting : Bool) : State :=
  upLc (fun lc => { lc with queue := [TxFrame.mk 1 .hello [0, 0, 0, 0]],
                            countdown := some { left := left, counting := counting, slotFrom := 0 } })

/-- A frame of a class and owner in transmission since 0. -/
def sending (cls : Nat) (owner : FrameOwner) : State :=
  upLc (fun lc => { lc with tx := some (TxFrame.mk cls owner [0, 0, 0, 0], 0) })

/-! ### Well-formedness refuses ill-formed terms -/

theorem test_wf_memory_without_end : (Instr.supplyUp (some [⟨1, 1⟩]) []).wf = false := by decide
theorem test_wf_position_past_ring : (Instr.supplyUp none [.ringPosition 1024]).wf = false := by decide
theorem test_wf_answer_without_draws : (Instr.answer (from' 9) 1 []).wf = false := by decide
theorem test_wf_record_without_chunk : (Instr.record (from' 9) 1 0 []).wf = false := by decide
theorem test_wf_record_chunk_too_long : (Instr.record (from' 9) 1 0 (List.replicate 20 0)).wf = false := by
  decide
theorem test_wf_price_body_against_flags : (Instr.price (from' 58) 0 (.ends 0)).wf = false := by decide
theorem test_wf_done_with_three_bytes : (Instr.headAnswer .a true 1 (.done [1, 2, 3])).wf = false := by decide
theorem test_wf_digit_ten : (Instr.digit 0 10).wf = false := by decide
theorem test_wf_claims_station : (Instr.claimsListEntryExpiry 48).wf = false := by decide
theorem test_wf_reoffer_of_none : (Instr.reofferDue 0).wf = false := by decide
theorem test_wf_accepts : (Instr.supplyUp (some [⟨0, 0⟩]) [.ringPosition 1023]).wf = true ∧
    (Instr.digit 0 9).wf = true ∧ (Instr.price (from' 58) 0 (.begins 1 2 3)).wf = true := by decide

/-! ### Worked cases of the spec -/

/-- Section 5.6: pulses 1 and 3 of the run at band 3 and 32.5 °C. -/
theorem test_pulse_of_the_run :
    metering.meter 10000 830 = (10024, 9878, { metering with
      stdCarry := 4014000, gross := 10024, std := 9878, pulses := ⟨0, 0, 1, 0⟩ }) ∧
    ({ metering with stdCarry := 8028000 }.meter 10000 830).2.1 = 9879 := by decide

/-- Section 5.6: pulse 251, the first of band 4 at 33.1 °C, with the carry of pulse 250. -/
theorem test_pulse_after_the_window :
    let d := { metering with band := 4, theta := 331, stdCarry := 3500000 }.meter 10000 830
    d.1 = 10031 ∧ d.2.1 = 9880 ∧ d.2.2.grossCarry = 50000 ∧ d.2.2.stdCarry = 6542870 := by decide

theorem test_rate_of_a_window : flowRate 171 10000 5 = 2052 ∧ bandFor ⟨300, 1200, 2000, 3000⟩ 2052 = some 4 := by
  decide

/-- Section 5.7: rounding at close. -/
theorem test_rounding_at_close : { metering with std := 213465000 }.adjustment = 5000 ∧
    { metering with std := 213464999 }.adjustment = -4999 ∧ roundClNat 2509123 = 251 := by decide

/-- Section 3.6: the replay of a draw list, times counted from 06:00:00. -/
theorem test_replay_of_a_draw_list :
    bucketLevel 83 (4 * 3600) [⟨1, 3 * 3600, true, 15000⟩, ⟨1, 0, true, 40000⟩] = 35080 := by decide

theorem test_amounts : amountCents 21347 1849 = 39471 ∧ amountCents 61279 1849 = 113305 ∧
    amountCents 1500 1867 = 2801 ∧ amountCents 1500 1866 = 2799 ∧ amountCents 25000 0 = 0 := by decide

/-- Section 10.3: a level of 735 mm at 28.0 °C. -/
theorem test_gauge_reading : tankVolume [(600, 5120), (800, 7040)] 735 = 641600 ∧
    gaugeStandard 641600 830 280 = 634677 := by decide

/-- Section 10.7: the queue position among the claims. -/
theorem test_queue_position :
    queuePosition { up with
      lc := { up.lc with claims := [⟨5, 18, 0⟩, ⟨9, 32, 0⟩, ⟨30, 32, 0⟩, ⟨41, 55, 0⟩] },
      su := { up.su with claim := true, book := BitVec.ofInt 48 (7780000000 + 100000000),
                         hours := [19200000000, 0, 0, 0, 0, 0, 0, 0] } } = 3 := by decide +kernel

/-- Section 4.3: the smallest term binds, and of equal ones the first. -/
theorem test_limit_of_the_terms :
    chooseLimit (some 80000) ⟨200000, 120000, 61275, 1662300, none⟩ = (.allowance, 61275) ∧
    chooseLimit (some 61275) ⟨200000, 120000, 61275, 1662300, none⟩ = (.preset, 61275) := by decide

/-- Section 11.4: the three records settled after a supply failure. -/
theorem test_settling_after_a_failure :
    let a : StockArea :=
      { book := BitVec.ofNat 48 8204316400, memory := [], loss := false, bookSeq := 5121, settledSeq := 5098,
        flights := ⟨some ⟨5120, 40612300, 0, 40004100⟩, some ⟨5121, 12000000, 0, 12120657⟩⟩ }
    let c : CloseFields := { recoveredClose a 5121 0 openDispense with std := 1215 }
    let recs := [StoredRecord.mk false 5120 0 true (.dispense openDispense),
      StoredRecord.mk true 5121 0 true (.dispense { openDispense with hose := .b, close := some c }),
      StoredRecord.mk true 5122 0 true (.delivery 50 312 300000 0 false)]
    (settle a recs).book = BitVec.ofNat 48 11204291157 ∧ (settle a recs).memory = [(50, 312)] ∧
      (recoveredDispense a 5120 0 openDispense).close.map CloseFields.amount = some 7396 := by decide +kernel
/-- A stored mark more than 1,024 below the counter stands (log 25). -/
theorem test_stored_mark_stands : markAt ⟨5000, 3000⟩ = 3000 ∧ counterAt ⟨5000, 3000⟩ [] = 5000 := by decide

/-- Section 12.1: the two short check values. -/
theorem test_check_values : checkValue [] = 0xFFFF#16 ∧ checkValue [1] = 0xC29A#16 := by decide

/-- Section 1.6: a MARK 60 s behind the clock holds it for 60 s. -/
theorem test_mark_behind_the_clock :
    (clockMark 4940 up).lc.hold = some (sec 60) ∧ (clockMark 4940 up).lc.clock = 5000 ∧
    (clockMark 5002 up).lc.hold = none ∧ (clockMark 5003 up).lc.clock = 5003 := by decide +kernel

/-! ### Hypotheses met: the step, the supply, the bounds, formats -/

theorem test_meets_StepTakesTheFrontCommand : { up with pending := [.idleGap] }.pending = .idleGap :: [] := rfl
theorem test_meets_EmptyQueueStep : up.pending = [] ∧ up.power = .released := by decide
theorem test_meets_SupplyUpReads : State.reset.power = .off ∧ up.power ≠ .off := by decide
theorem test_meets_ReleaseBeginsTheWork :
    recoveryDone { State.reset with power := .startUp } = true ∧ State.reset.warnPending = false ∧
    recoveryDone State.reset = false ∧
    (let s := { State.reset with power := .startUp, warnPending := true }
     recoveryDone s = true ∧ s.warnPending = true ∧ s.warned = false) := by decide
theorem test_release_takes_a_kept_warning :
    ∃ t, exec (.startupRelease false false false) { State.reset with power := .startUp, warnPending := true }
      = .next t ∧ t.warned = true ∧ (siteLine t).powerFailing = true ∧ t.lc.queue = [] := ⟨_, rfl, by decide +kernel⟩
theorem test_meets_WarningEndsTheWork : (up.power = .released ∧ up.warned = false) ∧
    { up with warned := true }.warned = true ∧ { State.reset with power := .startUp }.power = .startUp := by
  decide
theorem test_meets_SupplyFailure : up.power ≠ .off ∧ up.sc.current = none ∧
    { up with sc := { up.sc with current := some (.lc, .clock 5) } }.power ≠ .off := by decide
theorem test_meets_NothingElseBeforeRelease :
    State.reset.power ≠ .released ∧ actsBeforeRelease .idleGap = false := by decide
theorem test_meets_EveryStepKeepsTheBounds : Bounded up ∧ step up = .next { up with now := up.now + ms 1 } :=
  ⟨by constructor <;> decide, rfl⟩
theorem test_meets_NothingFallsBack :
    up.power = .released ∧ Instr.idleGap ≠ .supplyFailure := by decide
theorem test_meets_NewStoreStartsEmpty : State.reset.power = .off ∧ State.reset.store = Store.new := by decide
theorem test_meets_FrameOnTheLine : fieldsLengthOk (from' 9) (.hello 5 2) = true ∧
    fieldsLengthOk (from' 9) (.record 1 0 [7]) = true ∧
    fieldsLengthOk (from' 9) (.record 1 0 (List.replicate 19 7)) = true := by decide

/-- A full history, and one with no entries. -/
def fullHistory : History :=
  { valid := true, machine := 2 ^ 24 - 1, idCheck := 255, generation := 255,
    entries := [⟨47, 2 ^ 32 - 1, true, 2 ^ 24 - 1⟩, ⟨1, 5, false, 4⟩, ⟨17, 0, true, 0⟩] }

theorem test_meets_TagHistoryReadsBack :
    (fullHistory.valid = true ∧ fullHistory.machine < 2 ^ 24 ∧ fullHistory.idCheck < 2 ^ 8 ∧
      fullHistory.generation < 2 ^ 8 ∧ fullHistory.entries.length ≤ 3 ∧
      ∀ d ∈ fullHistory.entries, 1 ≤ d.bowser ∧ d.bowser ≤ 47 ∧ d.time < 2 ^ 32 ∧ d.volume < 2 ^ 24) ∧
    historyOf (historyFragment1 fullHistory) (historyFragment2 fullHistory) = fullHistory := by decide +kernel

/-! ### Hypotheses met: the channel -/

theorem test_meets_CarrierSenseEdges :
    up.lc.carrier = false ∧ (upLc fun lc => { lc with carrier := true }).lc.tx = none ∧
    (let s := upLc fun lc => { lc with carrier := true, rx := .receiving }
     s.lc.carrier = true ∧ s.lc.tx = none ∧ s.lc.rx = .receiving ∧ judgeBytes [8, 1] = .badLength) := by
  decide
theorem test_meets_IdleGapSlotsAndSpacing :
    ((waiting 5 false).lc.idle = true ∧ (waiting 5 false).lc.gapMet = false ∧
      (waiting 5 false).lc.countdown = some ⟨5, false, 0⟩) ∧
    ((waiting 0 false).lc.countdown = some ⟨0, false, 0⟩ ∧ (waiting 0 false).lc.queue.length = 1) ∧
    ((waiting 2 true).lc.countdown = some ⟨2, true, 0⟩ ∧ (waiting 1 true).lc.countdown = some ⟨1, true, 0⟩) ∧
    (let s := upLc fun lc => { lc with spacing := ⟨true, 0, 0, some 0⟩ }
     s.lc.spacing.held = true ∧ s.lc.spacing.idleSince = some 0 ∧ s.lc.queue = []) := by decide
theorem test_meets_TransmissionEnds :
    ((sending 3 .status).lc.tx = some (TxFrame.mk 3 .status [0, 0, 0, 0], 0) ∧ (sending 3 .status).lc.queue = []) ∧
    (let s := { sending 1 .hello with lc := { (sending 1 .hello).lc with link := .announce } }
     s.lc.tx = some (TxFrame.mk 1 .hello [0, 0, 0, 0], 0) ∧ s.lc.link = .announce) ∧
    (let s := { sending 2 (.query .a 0) with mt := { up.mt with wait := ⟨.sending 5 0 0, .none⟩ } }
     s.lc.tx = some (TxFrame.mk 2 (.query .a 0) [0, 0, 0, 0], 0) ∧ s.mt.wait.get .a = .sending 5 0 0 ∧
       s.lc.queue = []) ∧
    ((sending 4 (.offer 0 0 1)).lc.tx = some (TxFrame.mk 4 (.offer 0 0 1) [0, 0, 0, 0], 0) ∧
      (sending 4 (.offer 0 0 1)).ju.offer = none) ∧
    (let s := { sending 4 (.offer 0 1 2) with ju := { up.ju with
       counter := 1, recs := [JRec.mk 1 5 false .lost .offered 2 none], offer := some ⟨1, 0, 2⟩ } }
     s.lc.tx = some (TxFrame.mk 4 (.offer 0 1 2) [0, 0, 0, 0], 0) ∧ s.ju.offer = some ⟨1, 0, 2⟩ ∧ 1 + 1 = 2 ∧
       (∀ r ∈ s.ju.recs, r.number = 1 → r.state = .offered) ∧
       ∀ r ∈ s.ju.recs, r.number ≠ 1 → r.candidate s.ju.mark 0 = false) := by decide

theorem test_meets_FramesWaitByClass :
    (lcTakes up .hello = true ∧ up.lc.queue.length < 16) ∧
    (let s := upLc fun lc => { lc with queue := List.replicate 16 (TxFrame.mk 2 .draw []) }
     lcTakes s .status = true ∧ 16 ≤ s.lc.queue.length ∧ ∀ g ∈ s.lc.queue, g.offerSerial = none) ∧
    lcTakes { up with warned := true } .hello = false ∧
    (let s := upLc fun lc => { lc with queue := [TxFrame.mk 3 .status []] }
     s.lc.queue.head? = some (TxFrame.mk 3 .status []) ∧ 1 < 3 ∧ s.lc.gapMet = false ∧ s.lc.tx = none ∧
       s.lc.spacing.held = false) ∧
    ((waiting 5 false).lc.queue.head? = some (TxFrame.mk 1 .hello [0, 0, 0, 0]) ∧ 1 ≤ 1 ∧
      (waiting 5 false).lc.countdown = some ⟨5, false, 0⟩) := by decide
/-- A full queue whose last frame but one is a fragment of offer 4. -/
def offerAtTheEnd : State := upLc fun lc => { lc with
  queue := List.replicate 14 (TxFrame.mk 2 .draw []) ++ [TxFrame.mk 4 (.offer 4 0 1) [], TxFrame.mk 4 .draw []] }

theorem test_meets_NewestOfferDisplaced :
    (lcTakes offerAtTheEnd .hello = true ∧ 16 ≤ offerAtTheEnd.lc.queue.length ∧
      newestOffer offerAtTheEnd.lc.queue = some 4 ∧ ∀ g ∈ [TxFrame.mk 4 .draw []], g.offerSerial = none) ∧
    (let s := { up with ju := { up.ju with offer := some ⟨1, 4, 1⟩ } }
     s.ju.offer = some ⟨1, 4, 1⟩) := by decide
theorem test_displaced_offer_makes_room :
    ((enqueueFrame (TxFrame.mk 1 .hello []) offerAtTheEnd).2.lc.queue.map TxFrame.cls)
      = 1 :: List.replicate 14 2 ++ [4] := by decide

/-! ### Hypotheses met: received frames -/

/-- Record spacing held with some frames heard since. -/
def spaced (count : Nat) : State := upLc fun lc => { lc with spacing := ⟨true, count, 0, some 0⟩ }

theorem test_meets_HelloAndRecordAreHeard :
    Hears up (from' 9) (.hello 1 2) ∧ conflicts 9 1 up = false ∧ Hears up (from' 9) (.record 1 0 [7]) ∧
    Hears up (from' 17) (.hello 1 2) ∧ up.cfg.params.station = some (from' 17).source.toNat ∧
    (1 : BitVec 16) ≠ up.lc.startNumber ∧ up.lc.link ≠ .withdrawn ∧ up.lc.queue = [] :=
  ⟨by constructor <;> decide, by decide, by constructor <;> decide, by constructor <;> decide, by decide⟩
theorem test_meets_HeardWhileSpaced :
    Hears (spaced 2) (from' 9) (.record 1 0 [7]) ∧ up.lc.spacing.held = false ∧
    ((spaced 1).lc.spacing.held = true ∧ (spaced 1).lc.spacing.count < 2) ∧
    ((spaced 2).lc.spacing.held = true ∧ 2 ≤ (spaced 2).lc.spacing.count ∧ (spaced 2).lc.queue = [] ∧
      (spaced 2).lc.countdown = none ∧ (spaced 2).lc.tx = none ∧ (spaced 2).lc.gapMet = false) :=
  ⟨by constructor <;> decide, by decide⟩
theorem test_third_frame_releases_the_spacing :
    let s := { spaced 2 with lc := { (spaced 2).lc with queue := [TxFrame.mk 4 (.offer 0 0 1) []] } }
    (heard s).lc.spacing.held = false ∧ (heard s).lc.countdown.isSome = true := by decide

/-- A STATUS body with its claim set or clear. -/
def statusBody (claim : Byte) : StatusBody := ⟨1, 0, 12, claim, 1, 0, 0⟩

theorem test_meets_HeardStatus :
    Hears up (from' 1) (.status (statusBody 1)) ∧ Hears up (from' 47) (.status (statusBody 0)) ∧
    Hears up (from' 48) (.status (statusBody 0)) ∧
    Hears up (from' 17) (.status { statusBody 0 with startNumber := 23073 }) ∧ up.lc.startNumber = 23073 ∧
    (1 ≤ (from' 1).source.toNat ∧ (from' 47).source.toNat ≤ 47 ∧ 48 ≤ (from' 48).source.toNat) ∧
    up.cfg.params.station ≠ some (from' 1).source.toNat ∧ up.cfg.params.station ≠ some (from' 47).source.toNat ∧
    up.cfg.params.station = some (from' 17).source.toNat :=
  ⟨by constructor <;> decide, by constructor <;> decide, by constructor <;> decide,
    by constructor <;> decide, by decide⟩
theorem test_meets_StatusConflict :
    Hears up (from' 17) (.status (statusBody 0)) ∧ (statusBody 0).startNumber ≠ up.lc.startNumber ∧
    up.lc.link ≠ .withdrawn ∧ up.warned = false ∧ up.lc.queue = [] ∧
    (passOn (from' 17) (.status (statusBody 0)) (heard up)).lc.link = .withdrawn :=
  ⟨by constructor <;> decide, by decide, by decide, by decide, by decide, by decide⟩

/-- Sixteen claims. -/
def claims16 : List Claim := (List.range 16).map (fun i => ⟨i + 1, 10, 100 - i⟩)

theorem test_meets_ClaimsAfter :
    16 ≤ claims16.length ∧ (∀ c ∈ claims16, c.station ≠ 17) ∧ (∃ c ∈ claims16, c.station = 16) ∧
    (⟨16, 10, 85⟩ : Claim) ∈ claims16 ∧ (⟨16, 10, 85⟩ : Claim) ∉ claimsAfter claims16 17 5 200 true ∧
    (claimsAfter claims16 17 5 200 true).length = 16 := by decide

/-- A draw of bowser 9, as it goes on a line. -/
def draw9 : WireDraw := ⟨true, false, 9, 4900, 20000⟩

theorem test_meets_HeardDrawsAreMerged :
    (Hears up (from' 9) (.draw 52310 draw9) ∧ (52310 : BitVec 24) ≠ 0 ∧ draw9.bowser = (from' 9).source ∧
      up.mt.entries.length < 48) ∧
    (Hears up (from' 10) (.draw 52310 draw9) ∧ draw9.bowser ≠ (from' 10).source) ∧
    (Hears up (from' 9) (.answer 52310 [draw9, draw9]) ∧ ∀ x ∈ [draw9, draw9], x.bowser = (from' 9).source) ∧
    (Hears up (from' 10) (.answer 52310 [draw9]) ∧ ∃ x ∈ [draw9], x.bowser ≠ (from' 10).source) :=
  ⟨⟨by constructor <;> decide, by decide⟩, ⟨by constructor <;> decide, by decide⟩,
    ⟨by constructor <;> decide, by decide⟩, ⟨by constructor <;> decide, by decide⟩⟩
/-- A full Machine Table of machines 1 to 48. -/
def fullTable : Mt :=
  { Mt.initial with entries := (List.range 48).map (fun i => ⟨i + 1, none, [], none, 100 - i, none⟩) }

theorem test_meets_TouchOfAFullTable :
    fullTable.find 49 = none ∧ (fullTable.find 48).isSome = true ∧ 48 ≤ fullTable.entries.length ∧
    evictionChoice fullTable.entries = some ⟨48, none, [], none, 53, none⟩ ∧
    (fullTable.entries.filter (fun x => x.machine != 48)).length < 48 ∧
    (Mt.initial.find 49 = none ∧ Mt.initial.entries.length < 48) := by decide +kernel

/-- An entry of machine 52,310 with some draws. -/
def entry (draws : List Draw) : Entry := ⟨52310, none, draws, none, 5000, none⟩

/-- `up` with that entry in its Machine Table. -/
def knows (draws : List Draw) : State := { up with mt := { up.mt with entries := [entry draws] } }

theorem test_meets_HeardQueryIsAnswered :
    (let s := knows [⟨17, 4900, true, 20000⟩]
     Hears s (from' 9) (.query 52310 1) ∧ s.mt.find (52310 : BitVec 24).toNat = some (entry [⟨17, 4900, true, 20000⟩]) ∧
       ownDraws 17 5000 1 ((entry [⟨17, 4900, true, 20000⟩]).aged 5000).draws ≠ [] ∧ s.lc.queue = [] ∧
       s.lc.countdown = none ∧ s.lc.gapMet = false ∧ s.lc.link = .joined) ∧
    (let s := knows [⟨9, 4900, true, 20000⟩]
     Hears s (from' 9) (.query 52310 168) ∧ s.mt.find (52310 : BitVec 24).toNat = some (entry [⟨9, 4900, true, 20000⟩]) ∧
       ownDraws 17 5000 168 ((entry [⟨9, 4900, true, 20000⟩]).aged 5000).draws = []) :=
  ⟨⟨by constructor <;> decide, by decide⟩, ⟨by constructor <;> decide, by decide⟩⟩

theorem test_meets_MarkSetsTheSiteClock :
    (Hears up (from' 58) (.mark 9 0 4998) ∧ Hears up (from' 58) (.mark 9 0 5002) ∧
      Hears up (from' 58) (.mark 9 0 5003) ∧ Hears up (from' 58) (.mark 9 0 4997)) ∧
    (up.cfg.params.station ≠ some (9 : Byte).toNat ∧ up.pbu.banks.one.state ≠ .pending ∧
      up.pbu.banks.two.state ≠ .pending ∧ up.lc.hold = none) ∧
    (upLc fun lc => { lc with hold := some 5 }).lc.hold.isSome = true :=
  ⟨⟨by constructor <;> decide, by constructor <;> decide, by constructor <;> decide,
    by constructor <;> decide⟩, by decide, by decide⟩

/-- `up` with records 1 and 2 CLOSED. -/
def twoClosed : State :=
  { up with ju := { up.ju with
      counter := 2,
      recs := [JRec.mk 1 5 false .lost .closed 0 none, JRec.mk 2 5 false .lost .closed 0 none] } }

theorem test_meets_MarkCollectsTheRecords :
    (0 ≤ twoClosed.ju.mark) ∧
    (twoClosed.ju.mark < 1 ∧ 2 ≤ twoClosed.ju.highestClosed ∧ twoClosed.ju.waiting = []) ∧
    twoClosed.ju.highestClosed < 3 ∧
    Hears twoClosed (from' 58) (.mark 17 2 5000) ∧ twoClosed.cfg.params.station = some (17 : Byte).toNat :=
  ⟨by decide, by decide, by decide, by constructor <;> decide, by decide⟩

/-- The header of a fragment of collector 58. -/
def fragment (beginFlag endFlag : Bool) : Header := ⟨beginFlag, endFlag, 0, 0, 58⟩

theorem test_meets_PriceBookLoadBegins :
    Hears up (fragment true false) (.price 0 (.begins 1 0 16)) ∧
    (beginAccepted up 1 1 = true ∧ beginAccepted up 1 16 = true ∧ beginAccepted up 1 17 = false ∧
      up.pbu.load = none) := ⟨by constructor <;> decide, by decide⟩
/-- An entry fragment's header of collector 58, and its two entries. -/
def entries (index : Byte) : FrameBody := .price index (.entries ⟨0, 0, 1849⟩ ⟨0, 0, 1849⟩)

/-- One price for every cost centre. -/
def oneEntry : PriceEntry := ⟨0, 0, 1849⟩

/-- A load of book 1 with one entry, its entry fragment received. -/
def loading : State :=
  { up with
    lc := { up.lc with reassembly := some ⟨58, 2, 2, 0⟩ },
    pbu := { up.pbu with
      banks := ⟨⟨.loading, some ⟨1, 0, 1, [], 0⟩⟩, Bank.empty⟩, load := some ⟨.one, 1, [oneEntry, oneEntry]⟩ } }

theorem test_meets_PriceBookFragments :
    loading.pbu.load = some ⟨.one, 1, [oneEntry, oneEntry]⟩ ∧ loading.lc.reassembly = some ⟨58, 2, 2, 0⟩ ∧
    Hears loading (fragment false false) (entries 2) ∧ (2 : Byte).toNat = 2 ∧
    Hears loading (fragment false false) (entries 3) ∧ (3 : Byte).toNat ≠ 2 ∧
    Hears loading (fragment true false) (.price 1 (.begins 1 0 16)) ∧ Hears up (fragment false false) (entries 1) ∧
    up.lc.reassembly = none :=
  ⟨by decide, by decide, by constructor <;> decide, by decide, by constructor <;> decide, by decide,
    by constructor <;> decide, by constructor <;> decide, by decide⟩

/-- The CRC of that book. -/
def bookCrc : Half := checkValue (bookBytes 1 0 1 [oneEntry])

theorem test_meets_PriceBookLoadEnds :
    (loadedBook (loading.pbu.banks.get .one) ⟨.one, 1, [oneEntry, oneEntry]⟩ bookCrc = some ⟨1, 0, 1, [oneEntry], bookCrc⟩ ∧
      (Book.mk 1 0 1 [oneEntry] bookCrc).complete 1 = true ∧ loading.lc.sure = false) ∧
    (loadedBook (loading.pbu.banks.get .one) ⟨.one, 1, [oneEntry, oneEntry]⟩ 0 = some ⟨1, 0, 1, [oneEntry], 0⟩ ∧
      (Book.mk 1 0 1 [oneEntry] 0).complete 1 = false) ∧
    Hears loading (fragment false true) (.price 2 (.ends bookCrc)) :=
  ⟨by decide +kernel, by decide +kernel, by constructor <;> decide⟩
/-- A book that is PENDING with its time at 5,000. -/
def pendingBook : State :=
  { up with
    lc := { up.lc with sure := true },
    pbu := { up.pbu with banks := ⟨⟨.pending, some ⟨2, 5000, 1, [oneEntry], 0⟩⟩, Bank.empty⟩ } }

theorem test_meets_SwitchTest :
    (up.power = .released ∧ up.lc.hold = none) ∧
    pendingBook.pbu.switchState = .idle ∧ pendingBook.pbu.banks.which (· == .pending) = some .one ∧
    (pendingBook.pbu.banks.get .one).book = some ⟨2, 5000, 1, [oneEntry], 0⟩ ∧
    pendingBook.lc.sure = true ∧ 5000 ≤ pendingBook.lc.clock ∧ pendingBook.warned = false ∧
    0 < pendingBook.ju.free ∧ pendingBook.ju.waiting = [] ∧
    { up with ju := { up.ju with counter := 1024 } }.ju.free = 0 ∧
    (switchTest pendingBook).pbu.switchState = .writing := by decide +kernel
/-- The same book PENDING while the clock holds. -/
def heldBook : State := { pendingBook with lc := { pendingBook.lc with hold := some 5 } }

theorem test_meets_MarkEndsTheHold :
    Hears heldBook (from' 58) (.mark 9 0 5002) ∧ heldBook.lc.hold.isSome = true ∧
    Hears up (from' 58) (.mark 9 0 4998) ∧ up.lc.hold = none ∧ up.lc.sure = false :=
  ⟨by constructor <;> decide, by decide, by constructor <;> decide, by decide⟩
theorem test_end_of_a_hold_makes_the_switch :
    (clockMark 5002 heldBook).lc.hold = none ∧ (clockMark 5002 heldBook).pbu.switchState = .writing := by
  decide +kernel

theorem test_meets_DeliveryRaisesTheBook :
    (Hears up (from' 50) (.delivery 17 311 10000 0) ∧ Hears up (from' 50) (.delivery 17 311 4000000 0) ∧
      up.su.memory.contains (50, 311) = false ∧ 0 < up.ju.free) ∧
    (Hears up (from' 50) (.delivery 17 311 9999 0) ∧ Hears up (from' 50) (.delivery 17 311 4000001 0)) ∧
    (let s := { up with su := { up.su with memory := [(50, 311)] } }
     Hears s (from' 50) (.delivery 17 311 10000 0) ∧ s.su.memory.contains (50, 311) = true) :=
  ⟨⟨by constructor <;> decide, by constructor <;> decide, by decide⟩,
    ⟨by constructor <;> decide, by constructor <;> decide⟩, ⟨by constructor <;> decide, by decide⟩⟩
theorem test_meets_DeliveryNotRecorded :
    let s := { up with ju := { up.ju with counter := 1024 } }
    Hears s (from' 50) (.delivery 17 311 10000 0) ∧ Hears s (from' 50) (.delivery 17 311 4000000 0) ∧
      s.su.memory.contains (50, 311) = false ∧ s.ju.free = 0 ∧ { up with warned := true }.warned = true :=
  ⟨by constructor <;> decide, by constructor <;> decide, by decide⟩

theorem test_meets_FramesThatFailACheck :
    (up.power = .released ∧ receiving up = true ∧ receiving (sending 3 .status) = false) ∧
    (judgeBytes [3] = .badLength ∧ judgeBytes [4, 0, 0, 0, 0] = .badCrc ∧
      judgeBytes (lineBytes (withCheck [0, 9])) = .badKind ∧
      judgeBytes (lineBytes (frameBytes (from' 9) (.hello 5 2))) = .good (from' 9) (.hello 5 2)) ∧
    (fieldsLengthOk (from' 9) (.record 1 0 []) = false ∧ fieldsLengthOk (from' 9) (.hello 5 2) = true) ∧
    (spareOk { from' 9 with spare1 := 1 } (.query 5 1) = false ∧ spareOk (from' 48) (.query 5 1) = true ∧
      sourceOk (from' 48).source.toNat (.query 5 1) = false ∧
      sourceOk (from' 17).source.toNat (.query 5 1) = true ∧
      ownIdOk up.cfg.params.station (from' 17).source.toNat (.query 5 1) = false ∧
      ownIdOk up.cfg.params.station (from' 9).source.toNat (.query 5 1) = true) := by decide +kernel

/-! ### Hypotheses met: the link's times and the clock -/

theorem test_meets_ListenAndIsolationTimes :
    (let s := upLc fun lc => { lc with link := .listen, listenAt := some (sec 3) }
     s.warned = false ∧ s.lc.link = .listen ∧ s.lc.listenAt = some (sec 3) ∧ s.lc.queue = [] ∧ s.lc.tx = none ∧
       s.lc.countdown = none ∧ s.lc.gapMet = false ∧ s.lc.spacing.held = false) ∧ up.lc.link = .joined := by
  decide
theorem test_meets_StatusFramesAreMade :
    (let s := upLc fun lc => { lc with link := .announce, settleAt := some 7 }
     s.lc.link = .announce ∧ s.lc.settleAt = some 7) ∧
    (let s := upLc fun lc => { lc with lastStatusAt := some 7 }
     s.lc.link = .joined ∧ s.lc.lastStatusAt = some 7 ∧ s.lc.queue = [] ∧ s.lc.countdown = none) ∧
    (let s := upLc fun lc => { lc with lastStatusAt := some 7, queue := [TxFrame.mk 3 .status []] }
     s.lc.queue = [TxFrame.mk 3 .status []] ∧ s.lc.lastStatusAt = some 7) := by decide
theorem test_meets_ReassemblyAndClaimsExpire :
    (let s := upLc fun lc => { lc with reassembly := some ⟨58, 1, 1, 0⟩ }
     s.lc.reassembly = some ⟨58, 1, 1, 0⟩ ∧ s.pbu.load = none) ∧
    (loading.lc.reassembly = some ⟨58, 2, 2, 0⟩ ∧ loading.pbu.load.isSome = true) ∧
    (upLc fun lc => { lc with claims := [⟨5, 18, 0⟩] }).lc.claims.find? (fun c => c.station == 5)
      = some ⟨5, 18, 0⟩ := by decide
theorem test_meets_SiteClockRuns : (up.power = .released ∧ up.pbu.banks.one.state ≠ .pending ∧
    up.pbu.banks.two.state ≠ .pending ∧ up.lc.hold = none) ∧
    (upLc fun lc => { lc with hold := some 5 }).lc.hold = some 5 := by decide

/-! ### Hypotheses met: reader heads and panel -/

/-- `up` with a command of TIU-A waiting. -/
def reading (busy : TagBusy) (who : TagRequester) : State :=
  { up with tiu := ⟨{ up.tiu.a with
      busy := busy, requester := some who, waiting := some ⟨1, .readFragment 0, true, false, 0⟩ }, up.tiu.b⟩ }

/-- Fragment 0 of a tag with machine 1 and a good CRC. -/
def fragment0 : List Byte := withCheck [1, 0, 0, 1, 0x40, 0, 0, 1, 0, 1, 0, 1, 1, 0]

theorem test_meets_HeadAnswers :
    answerAccepted (reading .read0 (.au 0)).tiu.a false 1 0 = false ∧
    (answerAccepted (reading .read0 (.au 0)).tiu.a true 1 (ms 500) = true ∧ (fixedPartOf fragment0).isSome = true) ∧
    (answerAccepted (reading .probing .hc).tiu.a true 1 0 = true ∧
      ((reading .probing .hc).hc.get .a).state ≠ .flowing ∧ ((reading .probing .hc).hc.get .a).tagStep = .none) ∧
    ((reading .read0 (.au 0)).tiu.get .a).waiting = some ⟨1, .readFragment 0, true, false, 0⟩ := by decide +kernel
theorem test_meets_PanelMessagesNotActedOn :
    { up with pp := { up.pp with lastTaken := some 7 } }.pp.lastTaken = some 7 ∧
    Takes panelUp 0 ∧ panelUp.pp.authority = false :=
  ⟨rfl, by constructor <;> decide, rfl⟩
theorem test_meets_EntryKeys :
    Takes panelUp 0 ∧ (panelUp.au.digits.length < 6 ∧ panelUp.prove.phase ≠ .select ∧ panelUp.au.digits = [] ∧
      (panelUp.hc.get panelUp.pp.selected).state = .idle) ∧
    (let s := { panelUp with au := { panelUp.au with digits := [0, 0, 0, 2, 0, 0] } }
     Takes s 0 ∧ 6 ≤ s.au.digits.length ∧ s.au.digits ≠ [] ∧ entryValue s.au.digits = 200) :=
  ⟨by constructor <;> decide, by decide, by constructor <;> decide, by decide⟩
/-- Hose A, selected, in a state with its nozzle out, an entry keyed, and a record and terms of a grant. -/
def keyed (state : HoseState) (digits : List Nat) (slot : Slot) : State :=
  { panelUp with
    hc := ⟨{ up.hc.a with state := state, nozzleOut := true }, up.hc.b⟩,
    au := { up.au with
      digits := digits,
      session := ⟨{ up.au.session.a with terms := some ⟨200000, 120000, 61275, 1662300, none⟩ }, up.au.session.b⟩ },
    ju := { up.ju with slots := ⟨some slot, none⟩ } }

theorem test_keyed_takes (state : HoseState) (digits : List Nat) (slot : Slot) : Takes (keyed state digits slot) 0 :=
  ⟨rfl, rfl, nofun⟩
theorem test_meets_EntryKeysInEachState :
    (let s := keyed .authorised [3, 0, 0] (.reserved openDispense)
     s.pp.selected = .a ∧ (s.hc.get .a).state = .authorised ∧ s.au.digits ≠ [] ∧ 200 ≤ entryValue s.au.digits ∧
       (s.au.session.get .a).terms = some ⟨200000, 120000, 61275, 1662300, none⟩ ∧
       s.ju.slots.get .a = some (.reserved openDispense)) ∧
    (keyed .authorised [3, 0, 0] (.numbered 1)).ju.slots.get .a = some (.numbered 1) ∧
    entryValue [1, 9, 9] < 200 ∧ entryValue [2, 0, 0] = 200 ∧
    (∀ state ∈ [HoseState.identifying, .awaitKey, .querying, .flowing, .stopping, .writing, .hangWait],
      ((keyed state [2, 0, 0] (.numbered 1)).hc.get .a).state = state) ∧
    (keyed .authorised [] (.numbered 1)).au.digits = [] := by decide
theorem test_preset_after_the_grant_replaces_the_limit :
    ∃ t, exec (.enter 0) (keyed .authorised [3, 0, 0] (.reserved openDispense)) = .next t ∧
      (t.hc.get .a).limit = some 300 ∧ (t.hc.get .a).binding = some .preset ∧
      t.ju.slots.get .a = some (.reserved { openDispense with limit := 300, binding := .preset }) :=
  ⟨_, rfl, by decide +kernel⟩

/-- A supervisor's key in the reader, and the gauge settled. -/
def settledUp : State := { keyUp with
  now := sec 60, su := { keyUp.su with gauge := .good, standard := some 500, history := List.replicate 10 735 } }

theorem test_meets_SupervisorKeysAct :
    Takes keyUp 0 ∧ (keyUp.pp.authority = true ∧ keyUp.warned = false ∧ keyUp.prove.phase = .none ∧
      keyUp.sc.fault = false ∧ keyUp.su.loss = false ∧ keyUp.au.digits = [] ∧ keyUp.inspect.closeAt = none) ∧
    (Takes { keyUp with su := { keyUp.su with loss := true } } 0) ∧
    Takes settledUp 0 ∧ settled settledUp = true ∧ 0 < settledUp.ju.free :=
  ⟨by constructor <;> decide, by decide, by constructor <;> decide, by constructor <;> decide, by decide, by decide⟩
/-- The inspect page open at a sub-address, with some digits keyed. -/
def inspecting (sub : Nat) (digits : List Nat) : State :=
  { keyUp with inspect := { closeAt := some 5, sub := sub, value := 0 }, au := { keyUp.au with digits := digits } }

theorem test_meets_InspectPage :
    Takes (inspecting 255 []) 0 ∧ (inspecting 255 []).pp.authority = true ∧
    ((inspecting 255 []).au.digits = [] ∧ (inspecting 255 []).inspect.closeAt.isSome = true) ∧
    (inspectSub (inspecting 255 []) = 0 ∧ inspectSub (inspecting 7 []) = 8 ∧ inspectSub (inspecting 7 [3, 2]) = 32) ∧
    ((inspecting 7 [2, 5, 5]).au.digits ≠ [] ∧ min 255 (entryValue [2, 5, 5]) = 255 ∧
      min 255 (entryValue [2, 5, 6]) = 255) :=
  ⟨by constructor <;> decide, by decide, by decide, by decide, by decide⟩
theorem test_meets_KeyReaderAndPanelPresence :
    Takes panelUp 0 ∧ ((1 : BitVec 32) ≠ 0 ∧ (panelUp.hc.get panelUp.pp.selected).state ≠ .awaitKey ∧
      judgePanel [] = .bad ∧ panelUp.pp.present = true) ∧
    (let s := { panelUp with hc := ⟨{ panelUp.hc.a with state := .awaitKey }, panelUp.hc.b⟩ }
     Takes s 0 ∧ (s.hc.get s.pp.selected).state = .awaitKey) :=
  ⟨by constructor <;> decide, by decide, by constructor <;> decide, by decide⟩
theorem test_meets_DisplayRecordsAreSent :
    { State.reset with power := .startUp }.power = .startUp ∧
    (let r := { hoseRecord up .a with rate := 1 }
     { up with pp := { up.pp with hoseSent := ⟨some ⟨r, 0⟩, none⟩ } }.pp.hoseSent.get .a = some ⟨r, 0⟩ ∧
       r ≠ hoseRecord up .a) ∧
    { up with pp := { up.pp with prompt := some (.keyNotRead, 3) } }.pp.prompt = some (.keyNotRead, 3) ∧
    { up with inspect := { up.inspect with closeAt := some 3 } }.inspect.closeAt = some 3 := by decide
theorem test_meets_DiagnosticPageIsSent :
    let s := { up with pp := { up.pp with page := 1, pagesDue := [1], pageSent := some ⟨(2, diagnostics up), 0⟩ } }
    pageShown s.pp = some 1 ∧ s.pp.pageSent = some ⟨(2, diagnostics up), 0⟩ ∧
      ((2 : Byte), diagnostics up) ≠ (1, diagnostics s) := by
  refine ⟨by decide, rfl, ?_⟩
  intro h
  exact absurd (congrArg Prod.fst h) (by decide)
/-- Two pages asked for before any record goes both wait, the one last asked for at the end. -/
theorem test_pages_asked_for_all_wait :
    (askPage 5 (askPage 7 (askPage 5 up))).pp.pagesDue = [7, 5] ∧
    (askPage 0 (askPage 5 up)).pp.pagesDue = [5] ∧ pageShown (askPage 0 (askPage 5 up)).pp = some 5 ∧
    (sendPagesDue (askPage 7 (askPage 5 up))).pp.sent.length = 2 := by decide

/-- Chapter 12: an acknowledgement on the panel line, its type code, number and check. -/
theorem test_acknowledge_line : (panelLine 3 (.acknowledge 7)).length = 6 ∧
    (panelLine 3 (.acknowledge 7)).take 1 = [5] := by decide

/-! ### Hypotheses met: meters, nozzles, sessions -/

theorem test_meets_IncrementsOfAPulse : (1000 ≤ 1000 ∧ 95000 ≤ { metering with factors := Quad.all 95000 }.factors.get 3) ∧
    { metering with factors := Quad.all 105000 }.factors.get 3 ≤ 105000 ∧ metering.grossCarry < 100000 ∧
    0 ≤ c10 2000 700 := by decide
/-- The band, factors and totals of the pulse that `flowing` meters. -/
def pulseOf (s : State) : Nat × Nat × MuDispense :=
  metering.meter (s.cfg.params.hose.get .a).pulseWeight (s.cfg.params.hose.get .a).alpha

theorem test_meets_ForwardPulseIsMetered :
    (judgeEdge (flowing.mu.get .a) false = .forward ∧ (flowing.mu.get .a).dispense = some metering ∧
      metering.isProve = false) ∧
    ((flowing.hc.get .a).state = .flowing ∧ (flowing.hc.get .a).stage = .slow ∧
      flowing.ju.slots.get .a = some (.numbered 1) ∧ flowing.su.hours = 0 :: List.replicate 7 0) ∧
    (pulseOf flowing).2.2.std < (flowing.hc.get .a).limit.getD 0 * 10000 := by decide
theorem test_meets_PulseInStopping :
    let s := flowing.updHc .a (fun hc => { hc with state := .stopping })
    judgeEdge (s.mu.get .a) false = .forward ∧ (s.mu.get .a).dispense = some metering ∧
      (s.hc.get .a).state = .stopping ∧ s.ju.slots.get .a = some (.numbered 1) := by decide
/-- `flowing` with its standard total one microlitre below 10.00 L. -/
def below10L : State :=
  { flowing with mu := ⟨{ flowing.mu.a with dispense := some { metering with std := 9999999 } }, flowing.mu.b⟩ }

theorem test_meets_PulsePastTenLitres :
    judgeEdge (below10L.mu.get .a) false = .forward ∧
    (below10L.mu.get .a).dispense = some { metering with std := 9999999 } ∧
    (let e := ({ metering with std := 9999999 }.meter (below10L.cfg.params.hose.get .a).pulseWeight
       (below10L.cfg.params.hose.get .a).alpha).2.2
     e.std < (below10L.hc.get .a).limit.getD 0 * 10000 ∧ 9999999 / 10000000 < e.std / 10000000) := by decide
theorem test_pulse_past_ten_litres_asks_for_a_checkpoint :
    ∃ t, exec (.pulse .a false) below10L = .next t ∧ t.sc.current.map Prod.fst = some (.hc .a) :=
  ⟨_, rfl, by decide +kernel⟩

/-- Hose A in AUTHORISED, joined and full, its record reserved. -/
def granted : State :=
  { flowing.updHc .a (fun hc => { hc with state := .authorised, stage := .full }) with
    ju := { up.ju with slots := ⟨some (.reserved openDispense), none⟩ } }

theorem test_meets_FirstPulse :
    judgeEdge (granted.mu.get .a) false = .forward ∧ (granted.mu.get .a).dispense = some metering ∧
    (granted.hc.get .a).state = .authorised ∧ (granted.hc.get .a).joined = true ∧
    granted.ju.slots.get .a = some (.reserved openDispense) ∧ granted.ju.counter ≠ max32 ∧
    (pulseOf granted).2.2.std < (granted.hc.get .a).limit.getD 0 * 10000 ∧
    (granted.tiu.get .a).busy = .idle ∧ granted.warned = false := by decide
theorem test_meets_PulseBeforeJoining :
    let s := granted.updHc .a (fun hc => { hc with joined := false, stage := .closed })
    judgeEdge (s.mu.get .a) false = .forward ∧ (s.mu.get .a).dispense = some metering ∧
      (s.hc.get .a).state = .authorised ∧ (s.hc.get .a).joined = false ∧
      s.ju.slots.get .a = some (.reserved openDispense) ∧ s.ju.counter ≠ max32 ∧
      (pulseOf s).2.2.std < (s.hc.get .a).limit.getD 0 * 10000 := by decide
/-- `granted` with its record numbered before the flow. -/
def numberedBefore (joined : Bool) : State :=
  { granted.updHc .a (fun hc => { hc with joined := joined }) with ju := flowing.ju }

theorem test_meets_PulseOfANumberedRecord :
    (∀ joined ∈ [true, false],
      judgeEdge ((numberedBefore joined).mu.get .a) false = .forward ∧
      ((numberedBefore joined).mu.get .a).dispense = some metering ∧
      ((numberedBefore joined).hc.get .a).state = .authorised ∧
      ((numberedBefore joined).hc.get .a).joined = joined ∧
      (numberedBefore joined).ju.slots.get .a = some (.numbered 1) ∧
      (pulseOf (numberedBefore joined)).2.2.std < 50000 * 10000) ∧
    ((numberedBefore true).tiu.get .a).busy = .idle ∧ (numberedBefore true).warned = false ∧
    ((numberedBefore true).hc.get .a).limit = some 50000 := by decide
/-- An increment that comes while SU's write is under way makes SU ask again (R180). -/
theorem test_increment_makes_su_ask_again :
    ∃ t, exec (.pulse .a false) { flowing with sc := { up.sc with current := some (.su, .clock 5) } } = .next t ∧
      t.su.again = true ∧ t.sc.queue = [] := ⟨_, rfl, by decide +kernel⟩

/-- Hose A in the run of a prove of a vessel, its flow ended or not. -/
def proveRunning (vesselCl : Nat) (ended : Option EndCause) : State :=
  { upA (fun hc => { hc with state := .proving, stage := .full, joined := true, limit := some vesselCl,
                             endCause := ended }) with
    mu := ⟨{ up.mu.a with dispense := some { metering with isProve := true } }, up.mu.b⟩,
    prove := { up.prove with phase := .run, hose := some .a, vessel := some vesselCl } }

theorem test_meets_PulseOfAProve :
    let s := proveRunning 1000 none
    let e := ({ metering with isProve := true }.meter (s.cfg.params.hose.get .a).pulseWeight
      (s.cfg.params.hose.get .a).alpha).2.2
    judgeEdge (s.mu.get .a) false = .forward ∧ (s.mu.get .a).dispense = some { metering with isProve := true } ∧
      (s.hc.get .a).state = .proving ∧ s.prove.phase = .run ∧ (s.hc.get .a).endCause = none ∧
      (s.hc.get .a).joined = true ∧ e.gross < 1000 * 10000 ∧ 1 * 10000 ≤ e.gross ∧
      ((proveRunning 1 none).hc.get .a).limit.getD 0 = 1 ∧
      ((proveRunning 1 (some .limit)).hc.get .a).endCause.isSome = true := by decide
theorem test_meets_PulseOfAnUnjoinedProve :
    let s := (proveRunning 1000 none).updHc .a (fun hc => { hc with joined := false, stage := .closed })
    judgeEdge (s.mu.get .a) false = .forward ∧ (s.mu.get .a).dispense = some { metering with isProve := true } ∧
      (s.hc.get .a).state = .proving ∧ s.prove.phase = .run ∧ (s.hc.get .a).endCause = none ∧
      (s.hc.get .a).joined = false := by decide
theorem test_meets_LimitEndsTheDispense :
    let s := { flowing with mu := ⟨{ flowing.mu.a with dispense := some { metering with std := 500000000 } }, flowing.mu.b⟩ }
    judgeEdge (s.mu.get .a) false = .forward ∧ (s.hc.get .a).state = .flowing ∧
      (s.hc.get .a).limit.getD 0 * 10000 ≤ ({ metering with std := 500000000 }.meter
        (s.cfg.params.hose.get .a).pulseWeight (s.cfg.params.hose.get .a).alpha).2.2.std := by decide
theorem test_meets_EdgesThatMeterNothing :
    judgeEdge (up.mu.get .a) false = .forward ∧ judgeEdge (up.mu.get .a) true = .reverse ∧
    (up.mu.get .a).dispense = none := by decide

/-- `flowing` with an edge missed and some mismatches counted. -/
def mismatched (n : Nat) : State :=
  { flowing with mu := ⟨{ flowing.mu.a with
      dispense := some { metering with mismatches := n }, edgeSeen := true }, flowing.mu.b⟩ }

theorem test_meets_MeterFault :
    judgeEdge ((mismatched 20).mu.get .a) false = .mismatch ∧
    ((mismatched 20).mu.get .a).dispense = some { metering with mismatches := 20 } ∧
    ((mismatched 20).hc.get .a).state = .flowing ∧ { metering with mismatches := 19 }.mismatches < 20 ∧
    metering.faultReported = false := by decide
theorem test_meets_FlowWindowEnds : (up.mu.get .a).dispense = none ∧
    (flowing.mu.get .a).dispense = some metering ∧ bandFor (flowing.mu.get .a).limits 0 = some 1 := by decide
/-- Overspeed windows, the third in a row due, and bad samples. -/
theorem test_meets_OverspeedAndBadSamples :
    bandFor (flowing.mu.get .a).limits (65535 * (flowing.cfg.params.hose.get .a).pulseWeight * 6
      / (10 * ((flowing.cfg.params.hose.get .a).windowN * 100))) = none ∧ metering.consecutive < 2 ∧ metering.forcedSlow = false ∧
    { metering with consecutive := 2 }.consecutive = 2 ∧
    (goodSample (.reading (-400)) = some (-400) ∧ goodSample (.reading 700) = some 700 ∧
      goodSample (.reading (-401)) = none ∧ goodSample (.reading 701) = none ∧ goodSample .fault = none) := by decide
theorem test_third_overspeed_window_forces_slow :
    let d := { metering with consecutive := 2 }.windowEnds (Quad.all 0) 1 none
    d.forcedSlow = true ∧ d.band = 4 ∧ d.overspeed = 1 ∧ d.held = true ∧ d.theta = 325 := by decide
theorem test_meets_LiftStartsASession : up.power = .released ∧ up.warned = false ∧
    (up.hc.get .a).nozzleOut = false ∧ (up.hc.get .a).state = .idle ∧ (up.tiu.get .a).busy = .idle := by decide

/-- Hose A's session with its times set. -/
def inSession (state : HoseState) : State :=
  (upA fun hc => { hc with state := state, nozzleOut := true }).updSession .a (fun se =>
    { se with startAt := some 0, nextRead := some (sec 1), keyWaitFrom := some 0 })

theorem test_meets_WholeSeconds :
    (((inSession .identifying).hc.get .a).state = .identifying ∧
      ((inSession .identifying).au.session.get .a).nextRead = some (sec 1) ∧
      ((inSession .identifying).tiu.get .a).busy = .idle) ∧
    ((flowing.hc.get .a).probeAt = some (sec 1) ∧ (flowing.tiu.get .a).busy = .idle) := by decide
theorem test_meets_SessionTimeLimits :
    ((inSession .identifying).au.session.get .a).startAt.isSome = true ∧
    (((inSession .awaitKey).hc.get .a).state = .awaitKey ∧
      ((inSession .awaitKey).au.session.get .a).keyWaitFrom.isSome = true) ∧ 64 ≤ (inSession .awaitKey).ju.free ∧
    { up with ju := { up.ju with counter := 961 } }.ju.free < 64 := by decide
theorem test_meets_QueryWaitsRunOut :
    (let s := { inSession .querying with mt := { up.mt with wait := ⟨.sending 5 0 0, .none⟩ } }
     s.mt.wait.get .a = .sending 5 0 0 ∧ (s.hc.get .a).state = .querying ∧ s.lc.link = .joined) ∧
    (let s := { inSession .querying with
       mt := { up.mt with wait := ⟨.waiting 5 0 0, .none⟩ }, lc := { up.lc with link := .isolated } }
     s.mt.wait.get .a = .waiting 5 0 0 ∧ (s.hc.get .a).state = .querying ∧ s.lc.link ≠ .joined) := by decide

/-- The fixed part of a good tag of machine 1, class A, product 1. -/
def tagFixed : FixedPart :=
  { format := 1, machine := 1, cls := 1, keyRequired := false, costCentre := 1, product := 1, capacity := 1,
    allowance := 1, window := 1 }

/-- A history of machine 1 with no entries. -/
def tagHistory : History := { valid := true, machine := 1, idCheck := 1, generation := 0, entries := [] }

/-- Hose A in IDENTIFYING with fragment 1 of its tag read. -/
def lastFragment : State :=
  { inSession .identifying with
    cfg := { up.cfg with params := { up.cfg.params with product := 1 } },
    tiu := ⟨{ up.tiu.a with
      busy := .read2 tagFixed (historyFragment1 tagHistory), requester := some (.au up.au.session.a.serial),
      waiting := some ⟨1, .readFragment 2, false, true, 0⟩ }, up.tiu.b⟩ }

theorem test_meets_SessionsTakeTheTag :
    answerAccepted (lastFragment.tiu.get .a) true 1 lastFragment.now = true ∧
    (lastFragment.tiu.get .a).requester = some (.au (lastFragment.au.session.get .a).serial) ∧
    (lastFragment.hc.get .a).state = .identifying ∧
    historyOf (historyFragment1 tagHistory) (historyFragment2 tagHistory) = tagHistory ∧
    (tagHistory.machine = tagFixed.machine ∧ tagHistory.idCheck = tagFixed.machine % 256) ∧
    (historyOf [] []).valid = false := by decide +kernel
theorem test_meets_SessionsAreChecked :
    (fixedPartOk tagFixed = true ∧ fixedPartOk { tagFixed with window := 169 } = false) ∧
    (lastFragment.cfg.configured = true ∧ { up with cfg := Cfg.initial }.cfg.configured = false) ∧
    (lastFragment.sc.fault = false ∧ tagFixed.product = lastFragment.cfg.params.product ∧ tagFixed.product ≠ 2) ∧
    (let v := identify .a tagFixed tagHistory lastFragment
     identAnswer .a 1 v = .held ∧ identAnswer .b 1 v = .otherHose) ∧
    ({ tagFixed with keyRequired := true }.keyRequired = true ∧ lastFragment.pp.pendingOp.get .a = none) := by
  decide +kernel

/-- The session on hose A has its tag, and the table its entry. -/
def identified (fresh : Bool) : State :=
  { (identify .a tagFixed tagHistory lastFragment).updSession .a (fun se =>
      { se with fixed := some tagFixed, ident := some .held, fresh := fresh }) with tiu := up.tiu }

theorem test_meets_SessionsGoToTheGrant :
    (((identified false).au.session.get .a).fixed = some tagFixed ∧ 3 ≤ (identified false).ju.free ∧
      isBC tagFixed.cls = false ∧ isBC 2 = true ∧ 64 ≤ (identified false).ju.free ∧
      { up with ju := { up.ju with counter := 1022 } }.ju.free < 3) ∧
    ((identified false).lc.link = .joined ∧ (identified false).mt.wait.get .a = .none ∧
      (identified false).lc.queue.length < 16 ∧
      (identified false).mt.find 1 = some ⟨1, some tagFixed, [], none, 5000, some .a⟩) ∧
    ((identified true).au.session.get .a).fresh = true := by decide +kernel

/-- The session is in QUERYING, its wait SENDING. -/
theorem test_session_asks_its_query : ((afterKey .a (identified false)).hc.get .a).state = .querying ∧
    (afterKey .a (identified false)).mt.wait.get .a = .sending 1 0 0 ∧
    (afterKey .a (identified false)).lc.queue.map TxFrame.cls = [2] := by decide +kernel
theorem test_meets_LimitIsTheSmallestTerm :
    (let s := identified true
     (s.au.session.get .a).fixed = some tagFixed ∧ s.sc.fault = false ∧ 3 ≤ s.ju.free ∧
       s.ju.slots.get .a = none ∧ 0 < s.ju.free ∧ (s.mu.get .a).dispense = none ∧ s.warned = false) ∧
    (chooseLimit none ⟨200000, 100, 100, 300, none⟩).2 < 200 ∧
    200 ≤ (chooseLimit none ⟨200000, 200, 300, 300, none⟩).2 ∧
    (let s := identified true
     s.pump.state = .stopped ∧ s.pump.level < 6 ∧ s.pump.waiting = Two.both false) := by decide +kernel

/-! ### Hypotheses met: a dispense's ends, the pump, the prove -/

theorem test_meets_FlowEnds :
    (flowing.ju.slots.get .a = some (.numbered 1) ∧ (flowing.hc.get .a).state = .flowing ∧
      (flowing.hc.get .a).nozzleOut = true ∧ (flowing.hc.get .a).idleAt = some (sec 60)) ∧
    Takes { flowing with pp := panelUp.pp } 0 ∧ panelUp.pp.selected = .a ∧
    (let s := flowing.updHc .a (fun hc => { hc with state := .hangWait })
     (s.hc.get .a).state = .hangWait ∧ (s.hc.get .a).nozzleOut = true) :=
  ⟨by decide, by constructor <;> decide, by decide, by decide⟩
/-- Hose A in a state, its nozzle out, with nothing open for it. -/
def outIn (state : HoseState) : State :=
  { panelUp with hc := ⟨{ up.hc.a with state := state, nozzleOut := true, endCause := some .operatorStop }, up.hc.b⟩ }

theorem test_outIn_takes (state : HoseState) : Takes (outIn state) 0 := ⟨rfl, rfl, nofun⟩
theorem test_meets_HangAndStopElsewhere :
    (∀ state ∈ [HoseState.hangWait, .stopping, .writing, .proving, .identifying, .awaitKey, .querying],
      ((outIn state).hc.get .a).state = state ∧ ((outIn state).hc.get .a).nozzleOut = true ∧
      (outIn state).ju.slots.get .a = none ∧ (outIn state).pp.selected = .a) ∧
    (outIn .proving).prove.phase ≠ .run ∧ ((outIn .querying).au.session.get .a).ident ≠ some .held ∧
    ((identified false).au.session.get .a).ident = some .held ∧
    ((identified false).au.session.get .a).fixed = some tagFixed ∧
    ((identified false).hc.get .a).state = .identifying ∧ ((identified false).hc.get .a).nozzleOut = true := by
  decide +kernel
theorem test_hang_in_hang_wait_frees_the_hose :
    ∃ t, exec (.nozzleHang .a) (outIn .hangWait) = .next t ∧ (t.hc.get .a).state = .idle ∧
      (t.hc.get .a).nozzleOut = false := ⟨_, rfl, by decide⟩
theorem test_meets_ProveRunEnds :
    let s := { (proveRunning 1000 none).updHc .a (fun hc =>
        { hc with nozzleOut := true, idleAt := some (sec 60) }) with pp := panelUp.pp }
    (s.hc.get .a).state = .proving ∧ s.prove.phase = .run ∧ (s.hc.get .a).endCause = none ∧
      (s.hc.get .a).nozzleOut = true ∧ (s.hc.get .a).idleAt = some (sec 60) ∧ s.pp.selected = .a := by decide
theorem test_meets_TagLost :
    let s := { flowing with tiu := ⟨{ up.tiu.a with
      busy := .probing, requester := some .hc, misses := 2,
      waiting := some ⟨1, .testPresence, true, true, 0⟩ }, up.tiu.b⟩ }
    answerAccepted (s.tiu.get .a) true (1 : Byte).toNat s.now = true ∧ (s.tiu.get .a).busy = .probing ∧
      (s.tiu.get .a).requester = some .hc ∧ (s.tiu.get .a).misses = 2 ∧ (s.hc.get .a).nozzleOut = true := by
  decide
theorem test_meets_NoFlow :
    let s := { upA (fun hc => { hc with state := .authorised, nozzleOut := true, noFlowAt := some (sec 60) }) with
      mu := flowing.mu, ju := { up.ju with slots := ⟨some (.reserved openDispense), none⟩ } }
    (s.hc.get .a).state = .authorised ∧ (s.hc.get .a).noFlowAt = some (sec 60) ∧
      (s.mu.get .a).dispense = some metering ∧ metering.std = 0 ∧
      s.ju.slots.get .a = some (.reserved openDispense) ∧ s.ju.waiting = [] := by decide
theorem test_meets_EndsOfAnAuthorisation :
    let s := { upA (fun hc => { hc with state := .authorised, nozzleOut := true, noFlowAt := some (sec 60) }) with
      pp := panelUp.pp, ju := flowing.ju,
      mu := ⟨{ up.mu.a with dispense := some { metering with std := 2000000 } }, up.mu.b⟩ }
    (s.hc.get .a).state = .authorised ∧ (s.hc.get .a).nozzleOut = true ∧
      (s.hc.get .a).noFlowAt = some (sec 60) ∧ s.pp.selected = .a ∧
      (s.mu.get .a).dispense = some { metering with std := 2000000 } ∧
      s.ju.slots.get .a = some (.numbered 1) ∧ s.power = .released ∧ s.pp.present = true ∧
      s.pp.lastTaken ≠ some 0 := by decide
/-- Hose A draining after a STOP, with some of its record's fuel metered. -/
def draining (hung : Bool) : State :=
  { flowing.updHc .a (fun hc => { hc with
      state := .stopping, stage := .closed, hungSinceEnd := hung, endCause := some .operatorStop,
      drainAt := some (sec 3), drainLimitAt := some (sec 30) }) with
    mu := ⟨{ flowing.mu.a with dispense := some { metering with std := 2000000 } }, flowing.mu.b⟩,
    tiu := ⟨{ up.tiu.a with present := true }, up.tiu.b⟩ }

theorem test_meets_DrainEnds :
    ((draining true).power = .released ∧ ((draining true).hc.get .a).state = .stopping ∧
      (draining true).ju.slots.get .a = some (.numbered 1) ∧
      ((draining true).mu.get .a).dispense = some { metering with std := 2000000 } ∧ metering.isProve = false) ∧
    (((draining true).hc.get .a).drainAt = some (sec 3) ∧
      ((draining true).hc.get .a).drainLimitAt = some (sec 30) ∧
      ((draining true).hc.get .a).hungSinceEnd = true) ∧
    (((draining false).hc.get .a).hungSinceEnd = false ∧
      ((draining false).hc.get .a).endCause = some .operatorStop ∧
      ((draining false).tiu.get .a).present = true ∧ 0 < roundClNat 2000000 ∧
      ((draining false).tiu.get .a).busy = .idle ∧ (draining false).warned = false) := by decide

/-- The tag of `draining` being written, one fragment after the other. -/
def tagWriting (busy : TagBusy) : State :=
  { (draining false).updHc .a (fun hc => { hc with
      tagStep := .writing, closeTime := some (5000, false), summary := some metering.summary }) with
    tiu := ⟨{ up.tiu.a with
      busy := busy, requester := some .hc, waiting := some ⟨1, .testPresence, true, false, 0⟩ }, up.tiu.b⟩ }

theorem test_meets_TagWriteEnds :
    answerAccepted ((tagWriting (.write1 1 tagHistory)).tiu.get .a) true (1 : Byte).toNat 0 = true ∧
    (let s := tagWriting (.write2 1 tagHistory)
     answerAccepted (s.tiu.get .a) true (1 : Byte).toNat s.now = true ∧
       (s.tiu.get .a).busy = .write2 1 tagHistory ∧ (s.tiu.get .a).requester = some .hc ∧
       (s.hc.get .a).tagStep = .writing ∧ (s.hc.get .a).summary = some metering.summary ∧
       (s.hc.get .a).closeTime = some (5000, false) ∧ (s.hc.get .a).state = .stopping) := by decide
theorem test_hung_drain_closes_the_record :
    ∃ t, exec (.drainEnd .a) (draining true) = .next t ∧
      t.ju.recs.map (fun r => r.body.isClosed) = [true] ∧ t.pump.state = .runOn ∧
      t.pump.runOnAt = some (sec 8) := ⟨_, rfl, by decide +kernel⟩
theorem test_meets_PumpTimes :
    (let s := { up with pump := { up.pump with state := .running } }
     s.pump.state = .running ∧ hoseNeeds s .a = false ∧ hoseNeeds s .b = false) ∧
    hoseNeeds flowing .a = true ∧
    (let s := { up with pump := { up.pump with state := .runOn, runOnAt := some (sec 5) } }
     s.pump.state = .runOn ∧ s.pump.runOnAt = some (sec 5)) ∧
    (flowing.pump.fallAt = some (sec 100) ∧ flowing.pump.waiting = Two.both false) ∧
    (let s := { upA (fun hc => { hc with state := .authorised }) with
       pump := { up.pump with level := 6, fallAt := some 7, waiting := ⟨true, false⟩ } }
     s.pump.fallAt = some 7 ∧ s.pump.state = .stopped ∧ s.pump.level = 6 ∧ s.warned = false ∧
       s.pump.waiting.get .a = true ∧ (s.hc.get .a).state = .authorised) := by decide
theorem test_meets_PumpRequests :
    (up.pump.state = .stopped ∧ up.pump.level < 6 ∧ up.pump.waiting = Two.both false ∧ up.warned = false) ∧
    (let s := { up with pump := { up.pump with state := .runOn, runOnAt := some (sec 5), waiting := ⟨false, true⟩ } }
     s.pump.state ≠ .stopped ∧ s.pump.waiting.get Hose.a.other = true) ∧
    (let s := { up with pump := { up.pump with level := 6 } }
     s.pump.state = .stopped ∧ 6 ≤ s.pump.level) := by decide
theorem test_pump_starts_at_a_request :
    (pumpRequest .a up).pump.state = .running ∧ (pumpRequest .a up).pump.level = 1 ∧
      (pumpRequest .a up).pump.fallAt = some (sec 100) ∧ ((pumpRequest .a up).hc.get .a).joined = true := by decide
/-- A prove of hose A in a phase, the panel present with the supervisor's key and 1,000 keyed. -/
def proving (phase : ProvePhase) : State :=
  { keyUp with
    hc := ⟨{ up.hc.a with state := .proving }, up.hc.b⟩, au := { up.au with digits := [1, 0, 0, 0] },
    prove := { up.prove with phase := phase, hose := some .a, vessel := some 1000, timerAt := some 7 } }

theorem test_meets_ProveKeysAndTimes :
    (let s := { keyUp with prove := { up.prove with phase := .select, timerAt := some 7 } }
     Takes s 0 ∧ s.prove.phase = .select ∧ (s.hc.get .a).state = .idle ∧ s.prove.timerAt = some 7 ∧
       s.su.proveActive = false ∧ s.prove.hose = none) ∧
    Takes (proving .size) 0 ∧
    (((proving .size).hc.get .a).state = .proving ∧ ((proving .size).hc.get .a).nozzleOut = false ∧
      (proving .size).pp.selected = .a ∧ entryValue (proving .size).au.digits = 1000 ∧
      (proving .size).pp.authority = true ∧ (proving .size).su.proveActive = false ∧
      (proving .size).prove.timerAt = some 7) ∧
    entryValue [9, 9, 9] < 1000 ∧ 100000 < entryValue [1, 0, 0, 0, 0, 1] ∧ panelUp.pp.authority = false :=
  ⟨⟨by constructor <;> decide, by decide⟩, by constructor <;> decide, by decide⟩

/-- 100 pulses in band 2 and 20 in band 3. -/
def provePulses : Quad Nat := ⟨0, 100, 20, 0⟩

/-- A prove of hose A draining at the end of its run. -/
def proveDraining (pulses : Quad Nat) (c : EndCause) : State :=
  { proving .run with
    hc := ⟨{ up.hc.a with state := .proving, joined := true, endCause := some c, drainAt := some 7,
                          drainLimitAt := some 8 }, up.hc.b⟩,
    mu := ⟨{ up.mu.a with dispense := some { metering with isProve := true, pulses := pulses } }, up.mu.b⟩,
    su := { up.su with proveActive := true } }

/-- A prove of hose A in READING. -/
def proveReadingState : State :=
  { proving .reading with
    prove := { (proving .reading).prove with
      summary := some { metering.summary with gross := 1000, pulses := provePulses },
      factors := Quad.all 100000 },
    su := { up.su with proveActive := true } }

theorem test_meets_ProveRunAndReading :
    (((proving .ready).mu.get .a).dispense = none ∧ (proving .ready).prove.vessel = some 1000 ∧
      ((proving .ready).hc.get .a).nozzleOut = false ∧ (proving .ready).warned = false) ∧
    (let s := (proving .size).updHc .a (fun hc => { hc with nozzleOut := true })
     Takes s 0 ∧ s.prove.phase = .size ∧ (s.hc.get .a).nozzleOut = true ∧ s.au.digits ≠ []) ∧
    (let s := proveDraining provePulses .limit
     (s.hc.get .a).drainAt = some 7 ∧ (s.hc.get .a).drainLimitAt = some 8 ∧ s.prove.phase = .run ∧
       (s.hc.get .a).endCause = some .limit ∧ s.warned = false ∧ pulseTotal provePulses ≠ 0 ∧
       pulseTotal (Quad.all 0) = 0) ∧
    ((proveDraining provePulses .meterFault).hc.get .a).endCause = some .meterFault ∧
    Takes proveReadingState 0 ∧
    (proveReadingState.prove.phase = .reading ∧ proveReadingState.prove.hose = some .a ∧
      (proveReadingState.hc.get .a).state = .proving ∧ 0 < proveReadingState.ju.free ∧
      proveReadingState.prove.timerAt = some 7 ∧ proveReadingState.pp.authority = true ∧
      1 ≤ entryValue proveReadingState.au.digits ∧ entryValue proveReadingState.au.digits ≤ 110000) :=
  ⟨by decide, ⟨by constructor <;> decide, by decide⟩, by decide, by decide, by constructor <;> decide, by decide⟩
theorem test_reading_is_judged :
    ∃ t, exec (.enter 0) proveReadingState = .next t ∧ t.prove.outcome = some .accepted ∧
      t.prove.newF = 100000 ∧ (t.hc.get .a).state = .idle ∧ t.ju.counter = 1 := ⟨_, rfl, by decide +kernel⟩

theorem test_meets_ProveIsJudged :
    judgeProve provePulses (Quad.all 100000) 0 5 = (.unsteady, 100000, 100000) ∧
    (0 < 10000 ∧ pulseTotal provePulses * 80 ≤ provePulses.get (proveBand provePulses) * 100) ∧
    judgeProve provePulses (Quad.all 100000) 10000 10200 = (.accepted, 100000, 102000) ∧
    judgeProve provePulses (Quad.all 100000) 10000 10201 = (.outOfRange, 100000, 100000) := by decide

/-! ### Hypotheses met: offers, store, stock -/

theorem test_meets_OffersAreChosen :
    (let s := { flowing with ju := { flowing.ju with retryAt := some 7 } }
     s.ju.retryAt = some 7 ∧ ∀ r ∈ s.ju.recs, r.state = .opened) ∧
    (let r := JRec.mk 1 5 false .lost .offered 1 (some 7)
     let s := { up with ju := { up.ju with counter := 1, recs := [r] } }
     s.ju.recs = r :: [] ∧ r.number = s.ju.mark + 1 ∧ r.dueAt = some 7 ∧ s.warned = false ∧
       s.lc.link = .joined ∧ s.ju.offer = none ∧ s.ju.retryAt = none ∧ s.lc.queue = [] ∧ s.lc.gapMet = false ∧
       s.lc.spacing.held = false ∧ s.lc.tx = none ∧ s.lc.countdown = none) := by decide
theorem test_meets_RetryWaitWithACandidate :
    (let r := JRec.mk 1 5 false .lost .closed 0 none
     let s := { up with ju := { up.ju with counter := 1, recs := [r], retryAt := some 7 } }
     s.ju.recs = r :: [] ∧ r.number = s.ju.mark + 1 ∧ s.ju.retryAt = some 7 ∧ r.state = .closed ∧
       s.warned = false ∧ s.lc.link = .joined ∧ s.ju.offer = none ∧ s.lc.queue = []) ∧
    (let s := upLc fun lc => { lc with queue := List.replicate 16 (TxFrame.mk 2 .draw []) }
     16 ≤ s.lc.queue.length) := by decide
theorem test_meets_StoreWrites :
    (let s := { up with sc := { up.sc with current := some (.lc, .clock 5) } }
     s.power ≠ .off ∧ s.sc.current = some (.lc, .clock 5) ∧ s.sc.queue = [] ∧
       s.sc.queue.contains Requester.su = false) ∧
    { up with sc := { up.sc with queue := [.su] } }.sc.queue.contains Requester.su = true ∧
    (up.sc.current = none ∧ up.sc.queue = []) := by decide
/-- JU writing the closed record 1 of hose A, which is in WRITING. -/
def closing : State :=
  { (flowing.updHc .a (fun hc => { hc with
      state := .writing, closeTime := some (5000, false),
      summary := some { metering.summary with std := 200 } })) with
    sc := { up.sc with current := some (.ju, .mark 0) },
    ju := { flowing.ju with
      writing := some (.record 1, true),
      recs := [JRec.mk 1 5000 false
        (.dispense { openDispense with close := some (recoveredClose StockArea.new 1 0 openDispense) })
        .opened 0 none] } }

theorem test_meets_CloseWritten :
    closing.power = .released ∧ closing.sc.current = some (.ju, .mark 0) ∧
    closing.ju.writing = some (.record 1, true) ∧ (closing.ju.find 1).map JRec.number = some 1 ∧
    closing.ju.slots.get .a = some (.numbered 1) ∧ (closing.hc.get .a).state = .writing ∧
    0 < (closeDraw 17 (closing.hc.get .a)).volume ∧ lcTakes closing .draw = true ∧
    closing.lc.queue.length < 16 ∧ closing.lc.gapMet = false := by decide +kernel
theorem test_close_written_lets_the_hose_go :
    ∃ t, exec (.storeWriteEnd true) closing = .next t ∧ (t.hc.get .a).state = .hangWait ∧
      t.ju.slots.get .a = none ∧ (t.lc.queue.map TxFrame.cls).head? = some 2 ∧
      t.ju.recs.map JRec.state = [.offered] := ⟨_, rfl, by decide +kernel⟩
/-- JU writing the closed record 1 with contents that are not a dispense's or a prove's. -/
def writingRecord (body : RecBody) : State :=
  { up with
    sc := { up.sc with current := some (.ju, .mark 0) },
    ju := { up.ju with
      counter := 1, writing := some (.record 1, true), recs := [JRec.mk 1 5000 false body .opened 0 none] } }

theorem test_meets_OtherRecordsWritten :
    (∀ body ∈ [RecBody.delivery 50 312 300000 0 false, .adjust 5 9, .priceBook 2 1, .lost],
      (writingRecord body).ju.writing = some (.record 1, true) ∧
      ((writingRecord body).ju.find 1).map JRec.body = some body) ∧
    (let s := { closing with ju := { closing.ju with writing := some (.record 1, false) } }
     s.ju.writing = some (.record 1, false) ∧ s.sc.queue = [] ∧ s.ju.writeList = []) ∧
    (let s := { up with sc := { up.sc with current := some (.su, .clock 5) }, su := { up.su with again := true } }
     s.sc.current = some (.su, .clock 5) ∧ s.su.again = true ∧ s.sc.queue = []) ∧
    (let s := { up with sc := { up.sc with current := some (.pbu, .clock 5) }, pbu := { up.pbu with again := true } }
     s.sc.current = some (.pbu, .clock 5) ∧ s.pbu.again = true) ∧
    (let s := { up with sc := { up.sc with current := some (.lc, .clock 5), queue := [.su, .ju] } }
     s.sc.queue = .su :: [.ju]) := by decide +kernel
theorem test_written_price_book_is_switched :
    ∃ t, exec (.storeWriteEnd true) (writingRecord (.priceBook 2 1)) = .next t ∧
      t.pbu.switchState = .idle ∧ t.sc.current.map Prod.fst = some .pbu := ⟨_, rfl, by decide +kernel⟩
theorem test_written_delivery_is_settled :
    ∃ t, exec (.storeWriteEnd true) (writingRecord (.delivery 50 312 300000 0 false)) = .next t ∧
      t.su.settledSeq = 1 ∧ t.sc.current.map Prod.fst = some .su := ⟨_, rfl, by decide +kernel⟩

/-- JU writing the PROVE record 1 of a prove in RECORDING. -/
def recording (o : ProveOutcome) : State :=
  { up with
    sc := { up.sc with current := some (.ju, .mark 0) },
    su := { up.su with proveActive := true },
    prove := { up.prove with
      phase := .recording, hose := some .a, outcome := some o, band := some 2, newF := 102000,
      step := .record 1 },
    ju := { up.ju with
      counter := 1, writing := some (.record 1, true),
      recs := [JRec.mk 1 5000 false (.prove ⟨.a, some 2, 100000, 102000, 10000, some 10200, o, 9⟩)
        .opened 0 none] } }

theorem test_meets_ProveRecordWritten :
    (recording .accepted).ju.writing = some (.record 1, true) ∧
    ((recording .accepted).ju.find 1).map JRec.number = some 1 ∧
    (recording .accepted).prove.step = .record 1 ∧ (recording .accepted).prove.outcome = some .accepted ∧
    (recording .unsteady).prove.outcome ≠ some .accepted := by decide
theorem test_meets_FactorWritten :
    let s := { recording .accepted with
      sc := { up.sc with current := some (.proving, .factors .a (Quad.all 100000)) },
      prove := { (recording .accepted).prove with step := .factor, factorWrite := some ⟨.a, 2, 102000⟩ } }
    s.sc.current = some (.proving, .factors .a (Quad.all 100000)) ∧ s.sc.queue = [] ∧
      s.prove.factorWrite = some ⟨.a, 2, 102000⟩ ∧ s.prove.phase = .recording := by decide
theorem test_meets_CoverOfTheStock : up.su.hours.sum / 80000 = 0 ∧
    0 < { up.su with hours := [80000] }.hours.sum / 80000 := by decide
theorem test_meets_AmountOfARecord : { openDispense with price := 0 }.price = 0 ∧
    (recoveredClose StockArea.new 1 0 openDispense).std ≤ 16777215 ∧ openDispense.price ≤ 99999 := by decide
theorem test_meets_GaugeAndStockTimes :
    (let s := { up with su := { up.su with strapUsable := true } }
     s.su.strapUsable = true ∧ s.su.deliverySince = false ∧ s.now < s.su.lastCheck + sec 1800 ∧
       (-400 : Int) ≤ -400 ∧ (4000 : Nat) ≤ 4000 ∧ (700 : Int) ≤ 700) ∧
    (4000 < 4001 ∧ (-401 : Int) < -400 ∧ (700 : Int) < 701) ∧
    { up with su := { up.su with gauge := .good } }.su.gauge ≠ .fault ∧
    { up with su := { up.su with retryAt := some 7 } }.su.retryAt = some 7 := by decide
theorem test_meets_StockCheck :
    (let s := { settledUp with su := { settledUp.su with deliverySince := true } }
     s.su.standard = some 500 ∧ settled s = true ∧ s.warned = false ∧ s.su.retryAt = none ∧
       s.su.deliverySince = true ∧ 0 < s.ju.free ∧ s.su.lowCount ≤ 3) ∧
    (settledUp.su.deliverySince = false ∧ settledUp.now < settledUp.su.lastCheck + sec 1800) := by decide +kernel
theorem test_third_low_check_sets_the_loss :
    let s := { settledUp with su := { settledUp.su with
      deliverySince := true, lowCount := 2, book := BitVec.ofNat 48 (10 ^ 12) } }
    (considerCheck s).su.loss = true ∧ (considerCheck s).su.lowCount = 3 := by decide +kernel

end Sys2Proof.Tests
end

/-! The arithmetic of a metered pulse (R98). -/

namespace Sys2Proof.Machine

section GrossStep
variable {wp factor carry : Nat}

/-! ### The gross increment and its carry (R98) -/

/-- The gross carry is a remainder of the division by 100,000. -/
theorem grossStep_carry_lt : (grossStep wp factor carry).2 < 100000 := Nat.mod_lt _ (by decide)

/-- The least pulse weight under the least factor already makes 950 µL, whatever the carry. -/
theorem le_grossStep_increment (hw : 1000 ≤ wp) (hf : 95000 ≤ factor) :
    950 ≤ (grossStep wp factor carry).1 := by
  have hprod : 1000 * 95000 ≤ wp * factor := Nat.mul_le_mul hw hf
  have hsum : 950 * 100000 ≤ grossSum wp factor carry := by unfold grossSum; omega
  exact (Nat.le_div_iff_mul_le (by decide)).2 hsum

/-- The greatest pulse weight under the greatest factor makes exactly 105,000 µL, and a carry below 100,000 cannot
add one more. -/
theorem grossStep_increment_le (hw : wp ≤ 100000) (hf : factor ≤ 105000) (hc : carry < 100000) :
    (grossStep wp factor carry).1 ≤ 105000 := by
  have hprod : wp * factor ≤ 100000 * 105000 := Nat.mul_le_mul hw hf
  have hsum : grossSum wp factor carry < (105000 + 1) * 100000 := by unfold grossSum; omega
  exact Nat.le_of_lt_succ ((Nat.div_lt_iff_lt_mul (by decide)).2 hsum)

end GrossStep

/-! ### What a metered pulse takes from it -/

section Meter
variable (d : MuDispense) (wp alpha : Nat)

/-- A metered pulse's gross increment is that of the band in use and the carry so far. -/
@[simp] theorem MuDispense.meter_increment :
    (d.meter wp alpha).1 = (grossStep wp (d.factors.get d.band) d.grossCarry).1 := rfl

/-- A metered pulse keeps that step's remainder as the dispense's gross carry. -/
@[simp] theorem MuDispense.meter_grossCarry :
    (d.meter wp alpha).2.2.grossCarry = (grossStep wp (d.factors.get d.band) d.grossCarry).2 := rfl

end Meter

/-- An open clears the gross carry (R87). -/
@[simp] theorem Mu.opening_grossCarry (mu : Mu) (isProve : Bool) : (mu.opening isProve).grossCarry = 0 := rfl

/-- Settles O38: the pulse's gross step by its defining division, its range by the least and the greatest product
of weight and factor. -/
theorem grossIncrementOfAPulse : Obligations.GrossIncrementOfAPulse := by
  intro d wp alpha
  refine ⟨MuDispense.meter_increment .., MuDispense.meter_grossCarry .., ?carry, ?range,
    Mu.opening_grossCarry, rfl⟩
  case carry =>
    rw [MuDispense.meter_grossCarry]
    exact grossStep_carry_lt
  case range =>
    intro hwLow hwHigh hfLow hfHigh hcarry
    rw [MuDispense.meter_increment]
    exact ⟨le_grossStep_increment hwLow hfLow, grossStep_increment_le hwHigh hfHigh hcarry⟩

end Sys2Proof.Machine

/-! The amount of a DISPENSE record (R172). -/

namespace Sys2Proof.Machine

/-! ### The amount in cents -/

section AmountCents
variable {volumeCl price : Nat}

/-- An unpriced volume makes no cents: the half that rounds up is less than one. -/
@[simp] theorem amountCents_price_zero : amountCents volumeCl 0 = 0 := by
  simp [amountCents]

/-- The greatest volume at the greatest price. -/
theorem volume_mul_price_le (hv : volumeCl ≤ 16777215) (hp : price ≤ 99999) :
    volumeCl * price ≤ 16777215 * 99999 :=
  Nat.mul_le_mul hv hp

/-- Rounding half up adds less than one cent to the greatest product, so the amount keeps R172's bound. -/
theorem amountCents_lt (hv : volumeCl ≤ 16777215) (hp : price ≤ 99999) :
    amountCents volumeCl price < 1677704724 := by
  have hprod := volume_mul_price_le hv hp
  unfold amountCents
  omega

end AmountCents

/-! ### What the close step sets -/

section CloseWith
variable (d : DispenseRec) (c : CloseFields)

/-- The close step prices the billed volume at the record's own locked price, whatever amount it is handed. -/
@[simp] theorem DispenseRec.closeWith_amount :
    (d.closeWith c).close.map CloseFields.amount = some (amountCents c.std d.price) := rfl

/-- The close step keeps the billed standard volume it is handed. -/
@[simp] theorem DispenseRec.closeWith_std : (d.closeWith c).close.map CloseFields.std = some c.std := rfl

end CloseWith

/-! ### A record that recovery closes -/

section Recovered
variable (a : StockArea) (n clock : Nat) (d : DispenseRec)

/-- Recovery bills the standard volume of the figures it uses. -/
@[simp] theorem recoveredClose_std : (recoveredClose a n clock d).std = recoveredStd a n d := rfl

/-- Recovery closes through the close step and leaves the locked price, so the amount is that of the recovered
volume at this price. -/
theorem recoveredDispense_amount :
    (recoveredDispense a n clock d).close.map CloseFields.amount
      = some (amountCents (recoveredStd a n d) d.price) := by
  unfold recoveredDispense
  rw [DispenseRec.closeWith_amount, recoveredClose_std]

end Recovered

/-- Settles O58: both closes by the one close step's amount, the bounds by the greatest product of volume and
price. -/
theorem amountOfARecord : Obligations.AmountOfARecord := by
  intro d c a n clock
  refine ⟨d.closeWith_amount c, d.closeWith_std c, ?unpriced, recoveredDispense_amount a n clock d, ?bounds⟩
  case unpriced =>
    intro hprice
    rw [DispenseRec.closeWith_amount, hprice, amountCents_price_zero]
  case bounds =>
    intro hv hp
    exact ⟨(volume_mul_price_le hv hp).trans_lt (by decide), amountCents_lt hv hp⟩

end Sys2Proof.Machine

/-! The cover of the stock (R188). -/

namespace Sys2Proof.Machine

section Cover
variable {s : State}

/-- With nothing dispensed to speak of the cover is the greatest the site line can show. -/
theorem cover_of_dispensingRate_eq_zero (hrate : dispensingRate s.su.hours = 0) : cover s = 9999 :=
  if_pos hrate

/-- At a rate above 0 the stock given outside SU lasts for its quotient by the rate, in tenths of an hour. -/
theorem cover_of_dispensingRate_pos (hrate : 0 < dispensingRate s.su.hours) :
    cover s = min 9999 (availableGiven s * 10 / dispensingRate s.su.hours) :=
  if_neg hrate.ne'

/-- The site line takes the cover afresh from the state it is made of. -/
@[simp] theorem siteLine_cover : (siteLine s).cover = cover s := rfl

end Cover

/-- Settles O59: the two branches of the cover, at rate 0 and above it; the obligation writes the dispensing rate
out as the eight-hour sum over 80,000. -/
theorem coverOfTheStock : Obligations.CoverOfTheStock := by
  intro s
  exact ⟨cover_of_dispensingRate_eq_zero, cover_of_dispensingRate_pos, siteLine_cover⟩

end Sys2Proof.Machine

/-! The step, the supply and what every command keeps (sections 11.1, 11.3 and 11.5). -/

namespace Sys2Proof.Machine

/-! ### Every step and every power-on -/

/-- Settles O1: the step reads the queue's front. -/
theorem stepTakesTheFrontCommand : Obligations.StepTakesTheFrontCommand := by
  intro c rest s hq
  unfold step
  rw [hq]

/-- Settles O2: the step finds the queue empty, and what passes then is `idleStep`. -/
theorem emptyQueueStepPassesOneMillisecond : Obligations.EmptyQueueStepPassesOneMillisecond := by
  intro s hq
  unfold step idleStep
  rw [hq]

/-- Settles O12, by the eight shifts of the one byte. -/
theorem checkValueOfShortTexts : Obligations.CheckValueOfShortTexts := by
  unfold Obligations.CheckValueOfShortTexts
  decide

/-- A part with its supply off is within every bound. -/
theorem bounded_unpowered (pending : List Instr) (draws : Nat) (store : Store) :
    Bounded (State.unpowered pending draws store) := by
  constructor <;> exact Nat.zero_le _

/-- Settles O10. -/
theorem theBoundsHoldAtReset : Obligations.TheBoundsHoldAtReset := bounded_unpowered [] 0 Store.new

/-- What goes on from a state within the bounds is within them. -/
theorem Onward.bounded {s t : State} (h : Onward s t) (b : Bounded s) : Bounded t :=
  ⟨h.budget b.budget, h.queue b.queue, h.status b.status, h.entries b.entries, h.claims b.claims,
   h.digits b.digits, h.levels b.levels⟩

/-- The requests of recovery go on from the state that recovery has made. -/
theorem recoveryWrites_onward (changed : Bool) (s : State) : Onward s (recoveryWrites changed s) := by
  have asked : Onward s (scAsk .su (askJournal s)) := (askJournal_onward s).trans (scAsk_onward _ _)
  exact Onward.ite (asked.trans (scAsk_onward _ _)) asked

/-- Start-up fills no list that has a bound. -/
theorem bounded_startUp (cfg : Cfg) (st : Store) (s : State) : Bounded (startUp cfg st s) := by
  refine (recoveryWrites_onward _ _).bounded ?_
  constructor <;> exact Nat.zero_le _

/-- RELEASE clears LC's lists and leaves those of the other blocks. -/
theorem bounded_released (outA outB carrier : Bool) {s : State} (b : Bounded s) :
    Bounded (released outA outB carrier s) :=
  ⟨b.budget, Nat.zero_le _, Nat.zero_le _, b.entries, Nat.zero_le _, b.digits, b.levels⟩

/-- Every command keeps the bounds: an ordinary one goes on from its state, and the three of the supply fill no
list that has a bound. -/
theorem exec_bounded (i : Instr) {s t : State} (b : Bounded s) (h : exec i s = .next t) : Bounded t := by
  by_cases hi : Instr.ordinary i = true
  · obtain ⟨u, hu, on⟩ := exec_onward s i hi
    cases hu.symm.trans h
    exact on.bounded b
  · cases i with
    | supplyUp memory failing =>
      rw [← Host.Outcome.next.inj h]
      split
      · exact bounded_startUp _ _ s
      · exact b
    | startupRelease outA outB carrier =>
      have br := bounded_released outA outB carrier b
      rw [← Host.Outcome.next.inj h]
      split
      · split
        · exact (takeWarning_onward _).bounded br
        · exact br
      · exact b
    | supplyFailure =>
      rw [← Host.Outcome.next.inj h]
      split
      · exact b
      · exact bounded_unpowered _ _ _
    | _ => exact absurd rfl hi

/-- Settles O9: an idle step moves the elapsed count alone, and any other step is a command. -/
theorem everyStepKeepsTheBounds : Obligations.EveryStepKeepsTheBounds := by
  intro s t b h
  cases hq : s.pending with
  | nil =>
    rw [emptyQueueStepPassesOneMillisecond s hq] at h
    cases h
    split
    · exact ⟨b.budget, b.queue, b.status, b.entries, b.claims, b.digits, b.levels⟩
    · exact b
  | cons c rest =>
    rw [stepTakesTheFrontCommand c rest s hq] at h
    have taken : Bounded { s with pending := rest } :=
      ⟨b.budget, b.queue, b.status, b.entries, b.claims, b.digits, b.levels⟩
    exact exec_bounded c taken h

/-- A start-up's two commands change nothing of a released part. -/
theorem exec_supplyUp_of_up (memory : Option (List ConfigPair)) (failing : List AreaName) {s : State}
    (hp : s.power ≠ .off) : exec (.supplyUp memory failing) s = .next s :=
  congrArg Host.Outcome.next (if_neg hp)

/-- Before the writes of recovery have ended STARTUP_RELEASE changes nothing. -/
theorem exec_startupRelease_of_not_done (outA outB carrier : Bool) {s : State} (hd : recoveryDone s = false) :
    exec (.startupRelease outA outB carrier) s = .next s :=
  congrArg Host.Outcome.next (if_neg (by simp [hd]))

/-- Every command but the supply's failure goes on from the state of a released part. -/
theorem exec_onward_of_released {i : Instr} {s : State} (hp : s.power = .released) (hi : i ≠ .supplyFailure) :
    ∃ t, exec i s = .next t ∧ Onward s t := by
  by_cases ho : Instr.ordinary i = true
  · exact exec_onward s i ho
  · refine ⟨s, ?_, .refl s⟩
    cases i with
    | supplyUp memory failing => exact exec_supplyUp_of_up memory failing (by simp [hp])
    | startupRelease outA outB carrier =>
      exact exec_startupRelease_of_not_done outA outB carrier (by simp [recoveryDone, hp])
    | supplyFailure => exact absurd rfl hi
    | _ => exact absurd rfl ho

/-- Settles O11: the fields of `Onward`. -/
theorem nothingFallsBackWithinOnePowerOn : Obligations.NothingFallsBackWithinOnePowerOn := by
  intro i s hp hi
  obtain ⟨t, ht, on⟩ := exec_onward_of_released hp hi
  exact ⟨t, ht, on.pending, on.power.trans hp, on.cfg, on.start, on.now, on.clock, on.counter, on.mark, on.sure,
    on.warned, on.fault⟩

/-- Settles O8: every command but those named is taken by a released part alone. -/
theorem nothingElseIsTakenBeforeRelease : Obligations.NothingElseIsTakenBeforeRelease := by
  intro i s hp hi
  cases i with
  | supplyUp | startupRelease | powerFailWarning | displayRecordSend | storeWriteEnd | supplyFailure =>
    exact absurd hi (by simp [actsBeforeRelease])
  | _ => exact if_neg hp

end Sys2Proof.Machine

/-! The supply: start-up and the failure of the supply (sections 11.1, 11.3 and 11.5). -/

namespace Sys2Proof.Machine

/-! ### What a request for a store write changes (R201) -/

/-- A kick of SC changes its queue and the write under way, and JU's write list and the entry being written. -/
theorem scKick_eq (s : State) : scKick s = { s with
    sc := { s.sc with queue := (scKick s).sc.queue, current := (scKick s).sc.current },
    ju := { s.ju with writeList := (scKick s).ju.writeList, writing := (scKick s).ju.writing } } := by
  unfold scKick
  split
  · dsimp only
    split
    · rw [juPerform_eq]
    · rfl
  · rfl

/-- A request for a write changes what a kick of SC changes. -/
theorem scAsk_eq (r : Requester) (s : State) : scAsk r s = { s with
    sc := { s.sc with queue := (scAsk r s).sc.queue, current := (scAsk r s).sc.current },
    ju := { s.ju with writeList := (scAsk r s).ju.writeList, writing := (scAsk r s).ju.writing } } := by
  unfold scAsk
  split
  · rfl
  · rw [scKick_eq]

/-- So does JU's request. -/
theorem askJournal_eq (s : State) : askJournal s = { s with
    sc := { s.sc with queue := (askJournal s).sc.queue, current := (askJournal s).sc.current },
    ju := { s.ju with writeList := (askJournal s).ju.writeList, writing := (askJournal s).ju.writing } } := by
  unfold askJournal
  split
  · rfl
  · exact scAsk_eq _ s

/-- So do the requests of recovery. -/
theorem recoveryWrites_eq (changed : Bool) (s : State) : recoveryWrites changed s = { s with
    sc := { s.sc with queue := (recoveryWrites changed s).sc.queue,
                      current := (recoveryWrites changed s).sc.current },
    ju := { s.ju with writeList := (recoveryWrites changed s).ju.writeList,
                      writing := (recoveryWrites changed s).ju.writing } } := by
  unfold recoveryWrites
  dsimp only
  split
  · rw [scAsk_eq .pbu, scAsk_eq .su, askJournal_eq]
  · rw [scAsk_eq .su, askJournal_eq]

/-! ### Start-up (R196, R200) -/

/-- SUPPLY_UP of a part that is off starts it up by the configuration and the store as read. -/
theorem exec_supplyUp_of_off (memory : Option (List ConfigPair)) (failing : List AreaName) {s : State}
    (hp : s.power = .off) : exec (.supplyUp memory failing) s =
      .next (startUp (download memory) (failing.foldl Store.damage s.store) s) :=
  congrArg Host.Outcome.next (if_pos hp)

/-- Settles O4: the requests of recovery leave what start-up has taken from the configuration and the store. -/
theorem supplyUpReadsConfigurationAndStore : Obligations.SupplyUpReadsConfigurationAndStore := by
  intro memory failing s
  refine ⟨fun hp => ⟨_, exec_supplyUp_of_off memory failing hp, ?_⟩, exec_supplyUp_of_up memory failing⟩
  unfold startUp
  dsimp only
  rw [recoveryWrites_eq]
  have fault : ∀ l : List AreaName, (!l.isEmpty) = true ↔ l ≠ [] := by simp
  exact ⟨rfl, rfl, rfl, rfl, rfl, fault _, rfl, rfl, rfl, rfl, rfl, rfl, rfl, rfl, rfl, rfl⟩

/-- Settles O3: a new store holds no record and no area that fails. -/
theorem newStoreStartsEmpty : Obligations.NewStoreStartsEmpty := by
  intro memory s hp hstore
  refine ⟨_, exec_supplyUp_of_off memory [] hp, ?_⟩
  rw [List.foldl_nil, hstore]
  unfold startUp
  dsimp only
  rw [recoveryWrites_eq]
  refine ⟨rfl, rfl, rfl, rfl, rfl, rfl, rfl, rfl, rfl, rfl, rfl, rfl, rfl, fun h => ?_⟩
  cases h <;> rfl

/-! ### The supply fails (R206) -/

/-- Settles O7, by whether a write is under way. -/
theorem supplyFailureKeepsTheStore : Obligations.SupplyFailureKeepsTheStore := by
  intro s hp
  have failed : exec .supplyFailure s = .next (State.unpowered s.pending (s.draws + 1) (storeAtFailure s)) :=
    congrArg Host.Outcome.next (if_neg hp)
  refine ⟨fun hc => ?_, fun r w hc => ?_⟩
  · rw [failed, storeAtFailure, hc]
  · rw [failed, storeAtFailure, hc]

end Sys2Proof.Machine

/-! The power-fail warning and RELEASE (sections 11.1 and 11.5). -/

namespace Sys2Proof.Machine

/-! ### What the blocks have given up once they take the warning -/

/-- A part in which AU, JU, LC and the PC have taken the warning: the link, the pump, the waiting list and the query
waits are empty, and what the warning leaves alone is as in `b`. -/
structure WarnedAs (b t : State) : Prop where
  warned : t.warned = true
  warnPending : t.warnPending = b.warnPending
  power : t.power = b.power
  queue : t.lc.queue = []
  countdown : t.lc.countdown = none
  tx : t.lc.tx = none
  pump : t.pump.state = .stopped
  level : t.pump.level = b.pump.level
  fallAt : t.pump.fallAt = b.pump.fallAt
  waiting : t.ju.waiting = []
  wait : t.mt.wait = Two.both .none

/-- A hose that neither drives its valves nor is in a session or a dispense. -/
structure Hc.Over (x : Hc) : Prop where
  stage : x.stage = .closed
  identifying : x.state ≠ .identifying
  awaitKey : x.state ≠ .awaitKey
  querying : x.state ≠ .querying
  authorised : x.state ≠ .authorised
  flowing : x.state ≠ .flowing
  stopping : x.state ≠ .stopping

/-- A hose with no session before its grant. -/
def Hc.noSession (x : Hc) : Prop := x.state ≠ .identifying ∧ x.state ≠ .awaitKey ∧ x.state ≠ .querying

theorem Hc.Over.noSession {x : Hc} (h : x.Over) : x.noSession := ⟨h.identifying, h.awaitKey, h.querying⟩

/-- IDLE and HANG_WAIT are states of no session and no dispense. -/
theorem Hc.over_of_restState {x : Hc} {out : Bool} (hs : x.state = restState out) (hc : x.stage = .closed) :
    x.Over := by
  cases out <;> constructor <;> simp [hs, hc, restState]

/-- So is WRITING. -/
theorem Hc.over_of_writing {x : Hc} (hs : x.state = .writing) (hc : x.stage = .closed) : x.Over := by
  constructor <;> simp [hs, hc]

/-- A finished hose is over. -/
theorem Hc.over_rest (x : Hc) : x.rest.Over := Hc.over_of_restState (out := x.nozzleOut) rfl rfl

/-- Every hose is as it was or over. -/
def HcSettles (s t : State) : Prop := ∀ k, t.hc.get k = s.hc.get k ∨ (t.hc.get k).Over

theorem HcSettles.of_eq {s t : State} (h : t.hc = s.hc) : HcSettles s t := fun k => .inl (by rw [h])

theorem HcSettles.trans {s t u : State} (a : HcSettles s t) (b : HcSettles t u) : HcSettles s u := by
  intro k
  rcases b k with hb | hb
  · rw [hb]; exact a k
  · exact .inr hb

theorem HcSettles.over {s t : State} (a : HcSettles s t) {k : Hose} (h : (s.hc.get k).Over) : (t.hc.get k).Over := by
  rcases a k with e | o
  · rw [e]; exact h
  · exact o

theorem HcSettles.noSession {s t : State} (a : HcSettles s t) {k : Hose} (h : (s.hc.get k).noSession) :
    (t.hc.get k).noSession := by
  rcases a k with e | o
  · rw [e]; exact h
  · exact o.noSession

/-- A hose set over leaves the other as it was. -/
theorem hcSettles_of_set {s t : State} {h : Hose} {y : Hc} (hy : y.Over) (e : t.hc = s.hc.set h y) :
    HcSettles s t := by
  intro k
  rw [e]
  by_cases hk : k = h
  · subst hk; exact .inr (by rw [Two.get_set_self]; exact hy)
  · exact .inl (Two.get_set_of_ne _ _ hk)

/-! ### Operations that a warning makes smaller -/

/-- After the warning LC takes in no frame (R7). -/
theorem enqueueFrame_of_warned (f : TxFrame) {s : State} (hw : s.warned = true) : enqueueFrame f s = (false, s) := by
  unfold enqueueFrame
  rw [if_pos (by simp [lcTakes, hw])]

/-- After the warning an own close changes the Machine Table alone. -/
theorem ownClose_of_warned (h : Hose) (m : Nat) (d : Draw) {s : State} (hw : s.warned = true) :
    ownClose h m d s = { s with mt := (ownClose h m d s).mt } := by
  unfold ownClose
  dsimp only
  rw [enqueueFrame_of_warned _ (by exact hw), ite_self]
  rfl

@[simp] theorem Mt.ensure_wait (mt : Mt) (m clock : Nat) : (mt.ensure m clock).wait = mt.wait := by
  unfold Mt.ensure Mt.makeRoom
  dsimp only
  repeat' split
  all_goals rfl

@[simp] theorem Mt.touch_wait (mt : Mt) (m clock : Nat) (f : Entry → Entry) : (mt.touch m clock f).wait = mt.wait :=
  mt.ensure_wait m clock

/-- An own close leaves the query waits. -/
theorem ownClose_wait_of_warned (h : Hose) (m : Nat) (d : Draw) {s : State} (hw : s.warned = true) :
    (ownClose h m d s).mt.wait = s.mt.wait := by
  unfold ownClose
  dsimp only
  rw [enqueueFrame_of_warned _ (by exact hw), ite_self]
  simp [release, Mt.upd]

/-- With nothing waiting a withdrawal serves nobody: it changes JU's slots and its own flag. -/
theorem withdrawRecord_of_waiting_nil (h : Hose) {s : State} (hw : s.ju.waiting = []) :
    withdrawRecord h s = { s with ju := { s.ju with
      slots := (withdrawRecord h s).ju.slots, withdrawRefused := (withdrawRecord h s).ju.withdrawRefused } } := by
  unfold withdrawRecord
  split
  · simp only [serveWaiting, hw, serveList]
  · rfl

/-- A request for a stock write changes SC, JU's write list and what SU asks for again. -/
theorem askStock_eq (s : State) : askStock s = { s with
    su := { s.su with again := (askStock s).su.again },
    sc := { s.sc with queue := (askStock s).sc.queue, current := (askStock s).sc.current },
    ju := { s.ju with writeList := (askStock s).ju.writeList, writing := (askStock s).ju.writing } } := by
  unfold askStock
  split
  · rfl
  · rw [scAsk_eq]

/-- The MU's close changes the meter, the open record, SU and SC's requests. -/
theorem muClose_eq (h : Hose) (s : State) : (muClose h s).2 = { s with
    mu := (muClose h s).2.mu, su := (muClose h s).2.su, sc := (muClose h s).2.sc,
    ju := { s.ju with
      slots := (muClose h s).2.ju.slots, recs := (muClose h s).2.ju.recs,
      writeList := (muClose h s).2.ju.writeList, writing := (muClose h s).2.ju.writing } } := by
  unfold muClose
  split
  · rfl
  · dsimp only
    split
    · rfl
    · dsimp only
      unfold suAdjustment
      rw [askStock_eq]
      unfold updOpenDispense
      split <;> rfl

@[simp] theorem muClose_hc (h : Hose) (s : State) : (muClose h s).2.hc = s.hc := by rw [muClose_eq]

@[simp] theorem pumpSettle_hc (s : State) : (pumpSettle s).hc = s.hc := by rw [pumpSettle_eq]

@[simp] theorem release_hc (h : Hose) (m : Nat) (s : State) : (release h m s).hc = s.hc := rfl

namespace WarnedAs
variable {b s : State} (w : WarnedAs b s)
include w

theorem updHc (h : Hose) (f : Hc → Hc) : WarnedAs b (s.updHc h f) := { w with }

theorem withJu (ju : Ju) (hw : ju.waiting = []) : WarnedAs b { s with ju := ju } := { w with waiting := hw }

theorem withProve (p : Prove) : WarnedAs b { s with prove := p } := { w with }

theorem sessionNone (h : Hose) : WarnedAs b (sessionNone h s) := { w with }

theorem leaveWaiting (h : Hose) : WarnedAs b (leaveWaiting h s) := { w with }

theorem release (h : Hose) (m : Nat) : WarnedAs b (release h m s) := { w with }

theorem withdrawRecord (h : Hose) : WarnedAs b (withdrawRecord h s) := by
  rw [withdrawRecord_of_waiting_nil h w.waiting]
  exact { w with }

theorem muClose (h : Hose) : WarnedAs b (muClose h s).2 := by
  rw [muClose_eq]
  exact { w with }

theorem askStock : WarnedAs b (askStock s) := by
  rw [askStock_eq]
  exact { w with }

theorem writeListAdd (e : WriteEntry) : WarnedAs b (writeListAdd e s) := by
  unfold Machine.writeListAdd
  rw [askJournal_eq]
  exact { w with }

theorem proveNone : WarnedAs b (proveNone s) := { w with }

/-- A stopped pump has nothing to settle. -/
theorem pumpSettle_eq_self : pumpSettle s = s := by
  unfold pumpSettle
  rw [if_neg (by simp [w.pump])]

theorem pumpSettle : WarnedAs b (pumpSettle s) := by
  rw [w.pumpSettle_eq_self]
  exact w

theorem ownClose (h : Hose) (m : Nat) (d : Draw) : WarnedAs b (ownClose h m d s) := by
  have hwait : (Machine.ownClose h m d s).mt.wait = Two.both .none :=
    (ownClose_wait_of_warned h m d w.warned).trans w.wait
  rw [ownClose_of_warned h m d w.warned]
  exact { w with wait := hwait }

theorem closeEnded (h : Hose) : WarnedAs b (closeEnded h s) := by
  unfold Machine.closeEnded
  split
  · exact (w.ownClose _ _ _).updHc _ _
  · exact w

theorem closeRecord (h : Hose) (c : CloseFields) : WarnedAs b (closeRecord h c s) := by
  unfold Machine.closeRecord
  split
  · exact (w.withJu (s.ju.upd _ _) w.waiting).writeListAdd _
  · exact w

theorem enterWriting (h : Hose) (o : TagOutcome) : WarnedAs b (enterWriting h o s) := by
  have w1 := w.updHc h (fun hc => { hc with state := .writing, tagOutcome := some o, tagStep := .none })
  unfold Machine.enterWriting
  dsimp only
  rw [w1.pumpSettle_eq_self]
  split
  · exact w1.closeRecord _ _
  · exact (w1.withdrawRecord h).closeEnded h

theorem takeSummary (h : Hose) : WarnedAs b (takeSummary h s) := by
  unfold Machine.takeSummary
  exact ((w.updHc h _).muClose h).updHc h _

theorem closeStraight (h : Hose) : WarnedAs b (closeStraight h s) := (w.takeSummary h).enterWriting h _

theorem leaveAuthorised (h : Hose) (c : EndCause) : WarnedAs b (leaveAuthorised h c s) := by
  have w1 := ((w.updHc h (fun hc => hc.ends c)).leaveWaiting h).sessionNone h
  unfold Machine.leaveAuthorised
  dsimp only
  split
  · have w2 := (((w1.muClose h).withdrawRecord h).release h ((s.hc.get h).machine.getD 0)).updHc h Hc.rest
    exact w2.pumpSettle
  · exact w1.closeStraight h

theorem stoppingWarned (h : Hose) : WarnedAs b (stoppingWarned h s) := by
  unfold Machine.stoppingWarned
  split
  · exact w.closeStraight h
  · exact w.enterWriting h _
  · exact w.enterWriting h _

theorem leaveProving (h : Hose) : WarnedAs b (leaveProving h s) := by
  unfold Machine.leaveProving
  split
  · exact w.updHc h _
  · exact w

theorem proveCancel : WarnedAs b (proveCancel s) := by
  unfold Machine.proveCancel
  split
  · exact (w.leaveProving _).proveNone
  · exact w.proveNone

theorem proveHandOver (h : Hose) : WarnedAs b (proveHandOver h s) := by
  unfold Machine.proveHandOver
  exact (((w.muClose h).withProve _).updHc h _).pumpSettle

theorem hoseWarned (h : Hose) : WarnedAs b (hoseWarned h s) := by
  have w1 : WarnedAs b (closeStage h s) := w.updHc h _
  unfold Machine.hoseWarned
  dsimp only
  split
  · exact w1.leaveAuthorised h _
  · exact (w1.updHc h _).closeStraight h
  · exact w1.stoppingWarned h
  · split
    · have w2 := (w1.updHc h (fun hc => { hc with endCause := some .powerFail })).proveHandOver h
      unfold proveClose
      dsimp only
      have cause : (Machine.proveHandOver h ((closeStage h s).updHc h
          (fun hc => { hc with endCause := some .powerFail }))).prove.endCause = some .powerFail := by
        unfold Machine.proveHandOver
        dsimp only
        rw [pumpSettle_eq]
        simp
      rw [if_pos cause]
      exact w2.proveCancel
    · exact w1
  · exact w1

theorem proveWarned : WarnedAs b (proveWarned s) := by
  unfold Machine.proveWarned
  split
  · exact w
  · exact w
  · exact w.proveNone
  all_goals exact w.proveCancel

/-! ### What it leaves of the hoses (R127) -/

theorem withdrawRecord_hc (h : Hose) : (Machine.withdrawRecord h s).hc = s.hc := by
  rw [withdrawRecord_of_waiting_nil h w.waiting]

/-- The entry to WRITING leaves the hose there, or finished at once. -/
theorem enterWriting_hc (h : Hose) (o : TagOutcome) (hs : (s.hc.get h).stage = .closed) :
    ∃ y : Hc, y.Over ∧ (Machine.enterWriting h o s).hc = s.hc.set h y := by
  have w1 := w.updHc h (fun hc => { hc with state := .writing, tagOutcome := some o, tagStep := .none })
  unfold Machine.enterWriting
  dsimp only
  rw [w1.pumpSettle_eq_self]
  split
  · refine ⟨{ s.hc.get h with state := .writing, tagOutcome := some o, tagStep := .none },
      Hc.over_of_writing rfl hs, ?_⟩
    unfold Machine.closeRecord
    split <;> simp
  · have w2 := w1.withdrawRecord h
    refine ⟨_, Hc.over_rest { s.hc.get h with state := .writing, tagOutcome := some o, tagStep := .none }, ?_⟩
    unfold Machine.closeEnded
    dsimp only
    rw [if_pos (by rw [w1.withdrawRecord_hc]; simp), updHc_hc, ownClose_of_warned _ _ _ w2.warned]
    simp [w1.withdrawRecord_hc]

omit w in
/-- Steps 1 and 2 of the close leave the hose's state and stage. -/
theorem takeSummary_hc (h : Hose) : ∃ y : Hc, y.stage = (s.hc.get h).stage ∧
    (Machine.takeSummary h s).hc = s.hc.set h y := by
  unfold Machine.takeSummary
  dsimp only
  rw [updHc_hc, muClose_hc, updHc_hc, Two.get_set_self, Two.set_set]
  refine ⟨_, ?_, rfl⟩
  rfl

theorem closeStraight_hc (h : Hose) (hs : (s.hc.get h).stage = .closed) :
    ∃ y : Hc, y.Over ∧ (Machine.closeStraight h s).hc = s.hc.set h y := by
  obtain ⟨x, hx, ex⟩ := takeSummary_hc h
  obtain ⟨y, hy, ey⟩ := (w.takeSummary h).enterWriting_hc h .notAttempted (by rw [ex, Two.get_set_self, hx, hs])
  refine ⟨y, hy, ?_⟩
  unfold Machine.closeStraight
  rw [ey, ex, Two.set_set]

theorem leaveAuthorised_hc (h : Hose) (c : EndCause) :
    ∃ y : Hc, y.Over ∧ (Machine.leaveAuthorised h c s).hc = s.hc.set h y := by
  have w1 := ((w.updHc h (fun hc => hc.ends c)).leaveWaiting h).sessionNone h
  have e1 : (Machine.sessionNone h (Machine.leaveWaiting h (s.updHc h (fun hc => hc.ends c)))).hc
      = s.hc.set h ((s.hc.get h).ends c) := rfl
  unfold Machine.leaveAuthorised
  dsimp only
  split
  · refine ⟨_, Hc.over_rest ((s.hc.get h).ends c), ?_⟩
    have e2 := (w1.muClose h).withdrawRecord_hc h
    rw [muClose_hc, e1] at e2
    rw [pumpSettle_hc, updHc_hc, release_hc, e2, Two.get_set_self, Two.set_set]
  · obtain ⟨y, hy, ey⟩ := w1.closeStraight_hc h (by rw [e1, Two.get_set_self]; rfl)
    exact ⟨y, hy, by rw [ey, e1, Two.set_set]⟩

theorem stoppingWarned_hc (h : Hose) (hs : (s.hc.get h).stage = .closed) :
    ∃ y : Hc, y.Over ∧ (Machine.stoppingWarned h s).hc = s.hc.set h y := by
  unfold Machine.stoppingWarned
  split
  · exact w.closeStraight_hc h hs
  · exact w.enterWriting_hc h _ hs
  · exact w.enterWriting_hc h _ hs

end WarnedAs

/-- A hose that a prove lets go is finished. -/
theorem proveCancel_hcSettles (s : State) : HcSettles s (proveCancel s) := by
  unfold proveCancel
  split
  · next h _ =>
    unfold leaveProving
    split
    · exact hcSettles_of_set (Hc.over_rest _) rfl
    · exact .of_eq rfl
  · exact .of_eq rfl

/-- The warning to a prove settles the hoses. -/
theorem proveWarned_hcSettles (s : State) : HcSettles s (proveWarned s) := by
  unfold proveWarned
  split
  · exact .of_eq rfl
  · exact .of_eq rfl
  · exact .of_eq rfl
  all_goals exact proveCancel_hcSettles s

/-- The hand-over of a prove leaves its hose's state and stage. -/
theorem proveHandOver_hc (h : Hose) (s : State) : (proveHandOver h s).hc = s.hc.set h
    { s.hc.get h with drainAt := none, drainLimitAt := none, joined := false } := by
  unfold proveHandOver
  dsimp only
  rw [pumpSettle_eq, muClose_eq]
  rfl

/-- A prove in its run, its end cause POWER_FAIL, hands over and ends. -/
theorem proveClose_of_powerFail (h : Hose) {s : State} (hc : (s.hc.get h).endCause = some .powerFail) :
    proveClose h s = proveCancel (proveHandOver h s) := by
  have cause : (proveHandOver h s).prove.endCause = some .powerFail := by
    unfold proveHandOver
    dsimp only
    rw [pumpSettle_eq]
    exact hc
  unfold proveClose
  dsimp only
  rw [if_pos cause]

/-- A hose with no session is over once it has taken the warning, and the other is as it was or over. -/
theorem hoseWarned_hc {b s : State} (w : WarnedAs b s) (h : Hose) (hs : (s.hc.get h).noSession) :
    ((hoseWarned h s).hc.get h).Over ∧ HcSettles s (hoseWarned h s) := by
  obtain ⟨h1, h2, h3⟩ := hs
  have w1 : WarnedAs b (closeStage h s) := w.updHc h _
  have e1 : (closeStage h s).hc = s.hc.set h { s.hc.get h with stage := .closed } := rfl
  have get1 : (closeStage h s).hc.get h = { s.hc.get h with stage := .closed } := by rw [e1, Two.get_set_self]
  have one : ∀ {t : State}, (∃ y : Hc, y.Over ∧ t.hc = (closeStage h s).hc.set h y) →
      (t.hc.get h).Over ∧ HcSettles s t := by
    rintro t ⟨y, hy, e⟩
    rw [e1, Two.set_set] at e
    exact ⟨by rw [e, Two.get_set_self]; exact hy, hcSettles_of_set hy e⟩
  have rested : ((closeStage h s).hc.get h).Over → ((closeStage h s).hc.get h).Over ∧ HcSettles s (closeStage h s) :=
    fun o => one ⟨_, o, by rw [Two.set_get]⟩
  have staged : ((closeStage h s).hc.get h).stage = .closed := by rw [get1]
  unfold hoseWarned
  dsimp only
  cases hst : ((closeStage h s).hc.get h).state with
  | identifying | awaitKey | querying => rw [get1] at hst; contradiction
  | authorised => exact one (w1.leaveAuthorised_hc h _)
  | flowing =>
    dsimp only
    obtain ⟨y, hy, ey⟩ := (w1.updHc h (fun hc => hc.ends .powerFail)).closeStraight_hc h
      (by rw [updHc_hc, Two.get_set_self]; rfl)
    exact one ⟨y, hy, by rw [ey, updHc_hc, Two.set_set]⟩
  | stopping => exact one (w1.stoppingWarned_hc h staged)
  | proving =>
    dsimp only
    split
    · rw [proveClose_of_powerFail h (by rw [updHc_hc, Two.get_set_self])]
      have handed := proveHandOver_hc h ((closeStage h s).updHc h (fun hc => { hc with endCause := some .powerFail }))
      rw [updHc_hc, Two.set_set, Two.get_set_self] at handed
      obtain ⟨done, settles⟩ := one ⟨_, by constructor <;> simp [hst, staged], handed⟩
      exact ⟨(proveCancel_hcSettles _).over done, settles.trans (proveCancel_hcSettles _)⟩
    · exact rested (by constructor <;> simp [hst, staged])
  | idle | writing | hangWait => exact rested (by constructor <;> simp [hst, staged])

/-! ### The warning, block by block (R206) -/

/-- AU's end of a session changes the Machine Table, the sessions and the hose. -/
theorem endSession_eq (h : Hose) (s : State) : endSession h s = { s with
    mt := (endSession h s).mt, au := (endSession h s).au, hc := (endSession h s).hc } := by
  unfold endSession releaseHeld
  split
  all_goals first | rfl | (split <;> rfl)

@[simp] theorem endSession_warned (h : Hose) (s : State) : (endSession h s).warned = s.warned := by rw [endSession_eq]

@[simp] theorem endSession_warnPending (h : Hose) (s : State) : (endSession h s).warnPending = s.warnPending := by
  rw [endSession_eq]

@[simp] theorem endSession_power (h : Hose) (s : State) : (endSession h s).power = s.power := by rw [endSession_eq]

@[simp] theorem endSession_pump (h : Hose) (s : State) : (endSession h s).pump = s.pump := by rw [endSession_eq]

theorem releaseHeld_wait (h : Hose) (s : State) : (releaseHeld h s).mt.wait = s.mt.wait := by
  unfold releaseHeld
  split <;> rfl

theorem releaseHeld_hc (h : Hose) (s : State) : (releaseHeld h s).hc = s.hc := by
  unfold releaseHeld
  split <;> rfl

/-- With no query wait the end of a session leaves none. -/
theorem endSession_wait (h : Hose) {s : State} (hw : s.mt.wait = Two.both .none) :
    (endSession h s).mt.wait = Two.both .none := by
  have cancelled : (cancelWait h s).mt.wait = Two.both .none := by
    show s.mt.wait.set h .none = _
    rw [hw]; cases h <;> rfl
  unfold endSession
  split
  all_goals first
    | exact hw
    | exact (releaseHeld_wait h _).trans cancelled

/-- The hose of an ended session has none, and the other is as it was. -/
theorem endSession_hc (h : Hose) (s : State) :
    ((endSession h s).hc.get h).noSession ∧ (endSession h s).hc.get h.other = s.hc.get h.other := by
  have ended : ∀ {t : State}, t.hc = (releaseHeld h (cancelWait h s)).hc.set h
      { (releaseHeld h (cancelWait h s)).hc.get h with
        state := restState ((releaseHeld h (cancelWait h s)).hc.get h).nozzleOut } →
      (t.hc.get h).noSession ∧ t.hc.get h.other = s.hc.get h.other := by
    intro t e
    rw [releaseHeld_hc] at e
    rw [e, Two.get_set_self, Two.get_set_other]
    refine ⟨?_, rfl⟩
    unfold Hc.noSession restState
    dsimp only
    split <;> simp
  unfold endSession
  split
  · exact ended rfl
  · exact ended rfl
  · exact ended rfl
  · exact ⟨⟨by assumption, by assumption, by assumption⟩, rfl⟩

/-- What a dropped request does to its requester changes the prove, SU's account of it and the switch. -/
theorem requesterDropped_eq (r : WaitReq) (s : State) : requesterDropped r s = { s with
    prove := (requesterDropped r s).prove, su := (requesterDropped r s).su, pbu := (requesterDropped r s).pbu } := by
  cases r <;> rfl

/-- So do all of them. -/
theorem foldl_requesterDropped_eq (l : List WaitReq) (s : State) :
    l.foldl (fun acc r => requesterDropped r acc) s = { s with
      prove := (l.foldl (fun acc r => requesterDropped r acc) s).prove,
      su := (l.foldl (fun acc r => requesterDropped r acc) s).su,
      pbu := (l.foldl (fun acc r => requesterDropped r acc) s).pbu } := by
  induction l generalizing s with
  | nil => rfl
  | cons r rest ih =>
    rw [List.foldl_cons, ih, requesterDropped_eq]

/-- A discarded offer changes JU's records and the offer in queue. -/
theorem offerDiscarded_eq (serial : Nat) (s : State) : offerDiscarded serial s = { s with
    ju := { s.ju with recs := (offerDiscarded serial s).ju.recs, offer := (offerDiscarded serial s).ju.offer } } := by
  unfold offerDiscarded
  split
  · dsimp only
    split <;> rfl
  · rfl

/-- With no query wait, the report of a discarded frame changes JU's records and its offer. -/
theorem reportDiscarded_eq (f : TxFrame) {s : State} (hw : s.mt.wait = Two.both .none) :
    reportDiscarded f s = { s with ju := { s.ju with
      recs := (reportDiscarded f s).ju.recs, offer := (reportDiscarded f s).ju.offer } } := by
  unfold reportDiscarded
  split
  · unfold queryDiscarded
    rw [hw, Two.get_both]
  · rw [offerDiscarded_eq]
  · rfl

/-- So do the reports of a whole queue. -/
theorem reportAll_eq (l : List TxFrame) {s : State} (hw : s.mt.wait = Two.both .none) :
    reportAll l s = { s with ju := { s.ju with
      recs := (reportAll l s).ju.recs, offer := (reportAll l s).ju.offer } } := by
  induction l generalizing s with
  | nil => rfl
  | cons f rest ih =>
    have e := reportDiscarded_eq f hw
    unfold reportAll
    rw [ih (by rw [e]; exact hw), e]

/-- The state in which MT, AU, JU, LC and the PC have taken the warning. -/
def beforeHoses (s : State) : State :=
  pumpWarned (linkWarned (dropWaiting
    (endSession .b (endSession .a (cancelWait .b (cancelWait .a { s with warned := true }))))))

theorem takeWarning_eq (s : State) : takeWarning s =
    closeInspect (askStock (proveWarned (hoseWarned .b (hoseWarned .a (beforeHoses s))))) := rfl

/-- The sessions' ends as the warning makes them. -/
theorem sessionsEnded_wait (s : State) :
    (endSession .b (endSession .a (cancelWait .b (cancelWait .a { s with warned := true })))).mt.wait
      = Two.both .none :=
  endSession_wait _ (endSession_wait _ rfl)

/-- Link, journal and pump at the warning, in a part whose query waits have ended, leave the hoses. -/
theorem pumpWarned_linkWarned {b s : State} (hw : s.mt.wait = Two.both .none) (warned : s.warned = true)
    (warnPending : s.warnPending = b.warnPending) (power : s.power = b.power)
    (level : s.pump.level = b.pump.level) (fallAt : s.pump.fallAt = b.pump.fallAt) :
    WarnedAs b (pumpWarned (linkWarned (dropWaiting s))) ∧
      (pumpWarned (linkWarned (dropWaiting s))).hc = s.hc := by
  unfold pumpWarned linkWarned dropWaiting
  rw [foldl_requesterDropped_eq]
  dsimp only
  rw [scAsk_eq, reportAll_eq _ (by exact hw)]
  dsimp only
  exact ⟨⟨warned, warnPending, power, rfl, rfl, rfl, rfl, level, fallAt, rfl, hw⟩, rfl⟩

theorem beforeHoses_warnedAs (s : State) : WarnedAs s (beforeHoses s) ∧
    (beforeHoses s).hc
      = (endSession .b (endSession .a (cancelWait .b (cancelWait .a { s with warned := true })))).hc := by
  refine pumpWarned_linkWarned (b := s) (sessionsEnded_wait s) ?_ ?_ ?_ ?_ ?_ <;>
    simp [cancelWait, setWait]

/-- Once AU has taken the warning no hose has a session before its grant. -/
theorem beforeHoses_noSession (s : State) (k : Hose) : ((beforeHoses s).hc.get k).noSession := by
  obtain ⟨_, e⟩ := beforeHoses_warnedAs s
  rw [e]
  cases k with
  | a =>
    have kept := (endSession_hc .b (endSession .a (cancelWait .b (cancelWait .a { s with warned := true })))).2
    exact (congrArg Hc.noSession kept).mpr (endSession_hc .a _).1
  | b => exact (endSession_hc .b _).1

/-- What the link, the pump, the journal and the Machine Table have given up once the warning is taken. -/
theorem takeWarning_warnedAs (s : State) : WarnedAs s (takeWarning s) := by
  obtain ⟨w, _⟩ := beforeHoses_warnedAs s
  have taken := (((w.hoseWarned .a).hoseWarned .b).proveWarned).askStock
  rw [takeWarning_eq]
  exact { taken with }

/-- Once the warning is taken no hose drives its valves or is in a session or a dispense. -/
theorem takeWarning_over (s : State) (k : Hose) : ((takeWarning s).hc.get k).Over := by
  obtain ⟨w, _⟩ := beforeHoses_warnedAs s
  obtain ⟨overA, settlesA⟩ := hoseWarned_hc w .a (beforeHoses_noSession s .a)
  obtain ⟨overB, settlesB⟩ :=
    hoseWarned_hc (w.hoseWarned .a) .b (settlesA.noSession (beforeHoses_noSession s .b))
  have settles := proveWarned_hcSettles (hoseWarned .b (hoseWarned .a (beforeHoses s)))
  rw [takeWarning_eq]
  show ((askStock _).hc.get k).Over
  rw [askStock_hc]
  cases k with
  | a => exact settles.over (settlesB.over overA)
  | b => exact settles.over overB

theorem exec_powerFailWarning_of_released {s : State} (hp : s.power = .released) :
    exec .powerFailWarning s = .next (if s.warned then s else takeWarning s) := by
  show Host.Outcome.next (match s.power with | .off => _ | .startUp => _ | .released => _) = _
  rw [hp]

/-- Settles O6: each block's part of the warning, and what the later parts leave of it. -/
theorem warningEndsTheWork : Obligations.WarningEndsTheWork := by
  intro s
  refine ⟨fun hp hw => ?_, fun hp hw => ?_, fun hp => ?_⟩
  · have w := takeWarning_warnedAs s
    have ended := takeWarning_over s
    refine ⟨takeWarning s, ?_, w.warned, w.power.trans hp, w.queue, w.countdown, w.tx, w.pump, w.level, w.fallAt,
      w.waiting, w.wait, rfl, fun h => (ended h).stage, fun h => ?_⟩
    · rw [exec_powerFailWarning_of_released hp, hw]
      rfl
    · exact ⟨(ended h).identifying, (ended h).awaitKey, (ended h).querying, (ended h).authorised, (ended h).flowing,
        (ended h).stopping⟩
  · rw [exec_powerFailWarning_of_released hp, hw]
    rfl
  · show Host.Outcome.next (match s.power with | .off => _ | .startUp => _ | .released => _) = _
    rw [hp]

/-! ### RELEASE (R196) -/

/-- STARTUP_RELEASE with recovery done and no warning kept. -/
theorem exec_startupRelease (outA outB carrier : Bool) {s : State} (hd : recoveryDone s = true) :
    exec (.startupRelease outA outB carrier) s = .next
      (if s.warnPending then takeWarning (released outA outB carrier s) else released outA outB carrier s) :=
  congrArg Host.Outcome.next (if_pos hd)

/-- Settles O5: a warning kept from start-up is taken by the part just released. -/
theorem releaseBeginsTheWork : Obligations.ReleaseBeginsTheWork := by
  intro outA outB carrier s
  refine ⟨fun hd hw => ?_, fun hd hw => ?_, exec_startupRelease_of_not_done outA outB carrier⟩
  · refine ⟨released outA outB carrier s, ?_, rfl, rfl, rfl, rfl, rfl, rfl, rfl, rfl, rfl, rfl, rfl, rfl, rfl, rfl,
      rfl, rfl, rfl, rfl⟩
    rw [exec_startupRelease outA outB carrier hd, hw]
    rfl
  · have w := takeWarning_warnedAs (released outA outB carrier s)
    have on := takeWarning_onward (released outA outB carrier s)
    refine ⟨released outA outB carrier s, takeWarning (released outA outB carrier s), ?_, ?_, fun notWarned => ?_,
      w.power, w.warned, w.warnPending, on.pending, w.queue, w.warned⟩
    · exact exec_startupRelease outA outB carrier (s := { s with warnPending := false }) hd
    · rw [exec_startupRelease outA outB carrier hd, hw]
      rfl
    · rw [exec_powerFailWarning_of_released (by rfl)]
      exact congrArg Host.Outcome.next (if_neg (by show ¬ s.warned = true; simp [notWarned]))

end Sys2Proof.Machine

/-! Frames and tag histories read back from their bytes (chapter 12). -/

namespace Sys2Proof.Machine

/-! ### A frame on the line (R1, R13) -/

section Line
variable {frame : List Byte} (rest : List Byte)

/-- The length byte counts the frame bytes. -/
theorem line_count (h : frame.length ≤ 28) : ((lineBytes frame ++ rest).getD 0 0).toNat = frame.length := by
  show (BitVec.ofNat 8 frame.length).toNat = frame.length
  rw [BitVec.toNat_ofNat, Nat.mod_eq_of_lt (by omega)]

/-- So many bytes behind it are the frame, whatever follows. -/
theorem line_frame : ((lineBytes frame ++ rest).drop 1).take frame.length = frame := by
  show (frame ++ rest).take frame.length = frame
  rw [List.take_append_of_le_length le_rfl, List.take_length]

end Line

section Frame
variable (hd : Header) (body : FrameBody)

/-- A frame without its last two bytes is its header and its body. -/
theorem frameBytes_take : (frameBytes hd body).take ((bodyBytes body).length + 2)
    = headerBytes hd (kindCode body) ++ bodyBytes body := by
  unfold frameBytes withCheck
  rw [List.take_append_of_le_length (by simp; omega)]
  exact List.take_of_length_le (by simp; omega)

/-- Behind the header bytes stands the body. -/
theorem frameBytes_body : ((frameBytes hd body).drop 2).take (bodyBytes body).length = bodyBytes body := by
  show (bodyBytes body ++ be 2 _).take _ = _
  rw [List.take_append_of_le_length le_rfl, List.take_length]

/-- The last two bytes are the check value over the ones before. -/
theorem frameBytes_check : field (frameBytes hd body) ((bodyBytes body).length + 2) 2
    = (checkValue (headerBytes hd (kindCode body) ++ bodyBytes body)).toNat := by
  have behind := field_skip (headerBytes hd (kindCode body) ++ bodyBytes body)
    (be 2 (checkValue (headerBytes hd (kindCode body) ++ bodyBytes body)).toNat) 0 2
  have count : (headerBytes hd (kindCode body) ++ bodyBytes body).length + 0 = (bodyBytes body).length + 2 := by
    simp; omega
  rw [count] at behind
  rw [frameBytes, withCheck, behind, field_be_end]
  exact Nat.mod_eq_of_lt (checkValue _).isLt

end Frame

/-- Settles O13: the checks of R13 find the length, the check value, the kind and the fields as they were put in. -/
theorem frameOnTheLineReadsBack : Obligations.FrameOnTheLineReadsBack := by
  intro hd body rest hok
  have short := bodyBytes_length_le hok
  obtain ⟨kind, beginFlag, endFlag, spare0⟩ := header_byte0 (kindCode_le body) hd.beginFlag hd.endFlag hd.spare0
  obtain ⟨spare1, source⟩ := header_byte1 hd.spare1 hd.source
  have byte0 : (frameBytes hd body).getD 0 0
      = BitVec.ofNat 8 (kindCode body * 16 + bit hd.beginFlag 3 + bit hd.endFlag 2 + hd.spare0.toNat) := rfl
  have byte1 : (frameBytes hd body).getD 1 0 = BitVec.ofNat 8 (hd.spare1.toNat * 64 + hd.source.toNat) := rfl
  have bodyCount : (frameBytes hd body).length - 4 = (bodyBytes body).length := by simp
  have checkedCount : (frameBytes hd body).length - 2 = (bodyBytes body).length + 2 := by simp
  unfold judgeBytes
  dsimp only
  rw [line_count rest (by simp; omega), line_frame, bodyCount, checkedCount, byte0, byte1, kind, beginFlag, endFlag,
    spare0, spare1, source, frameBytes_take, frameBytes_body, frameBytes_check, allowed_of_fields hok,
    if_neg (by simp; omega), if_neg (by simp), bodyOf_bytes hok]

/-! ### A history on its tag (R28, R214) -/

/-- A draw within its field widths comes back from the form it has on a line or a tag. -/
theorem Draw.ofWire_toWire {d : Draw} (hb : d.bowser ≤ 47) (ht : d.time < 2 ^ 32) (hv : d.volume < 2 ^ 24) :
    Draw.ofWire d.toWire = d := by
  unfold Draw.ofWire Draw.toWire
  simp only [BitVec.toNat_ofNat]
  rw [Nat.mod_eq_of_lt (by omega), Nat.mod_eq_of_lt ht, Nat.mod_eq_of_lt hv]

@[simp] theorem entryPlace_length (entries : List Draw) (i : Nat) : (entryPlace entries i).length = 8 := by
  unfold entryPlace
  split <;> simp

@[simp] theorem historyBody_length (x : History) : (historyBody x).length = 30 := by simp [historyBody]

section Fragments
variable (x : History)

/-- The two fragments without the check value are the history's bytes. -/
theorem historyFragments_body :
    (historyFragment1 x).take 16 ++ (historyFragment2 x).take 14 = historyBody x := by
  have second : (historyFragment2 x).take 14 = (historyBody x).drop 16 := by
    unfold historyFragment2 withCheck
    rw [List.drop_append_of_le_length (by simp), List.take_append_of_le_length (by simp),
      List.take_of_length_le (by simp)]
  rw [second, historyFragment1, List.take_take, Nat.min_self, List.take_append_drop]

/-- A field of fragment 1 is one of the history's bytes. -/
theorem field_historyFragment1 {start k : Nat} (h : start + k ≤ 16) :
    field (historyFragment1 x) start k = field (historyBody x) start k := by
  unfold field historyFragment1
  rw [List.drop_take, List.take_take, Nat.min_eq_left (by omega)]

/-- A field of fragment 2 stands 16 bytes further on. -/
theorem field_historyFragment2 (start k : Nat) :
    field (historyFragment2 x) start k = field (withCheck (historyBody x)) (16 + start) k := by
  unfold field historyFragment2
  rw [List.drop_drop]

/-- Three places of eight bytes behind five, cut after the sixteenth byte. -/
theorem cut_places {front a b c rest : List Byte} (hf : front.length = 5) (ha : a.length = 8) (hb : b.length = 8)
    (hc : c.length = 8) :
    (((front ++ a ++ b ++ c ++ rest).take 16).drop 5).take 8 = a ∧
    (((front ++ a ++ b ++ c ++ rest).take 16).drop 13).take 3 ++ ((front ++ a ++ b ++ c ++ rest).drop 16).take 5 = b ∧
    (((front ++ a ++ b ++ c ++ rest).drop 16).drop 5).take 8 = c := by
  have first : (front ++ a ++ b ++ c ++ rest).take 16 = front ++ a ++ b.take 3 := by
    simp [List.take_append, hf, ha, hb, hc, List.take_of_length_le]
  have second : (front ++ a ++ b ++ c ++ rest).drop 16 = b.drop 3 ++ c ++ rest := by
    simp [List.drop_append, hf, ha, hb, hc, List.drop_eq_nil_of_le]
  rw [first, second]
  refine ⟨?_, ?_, ?_⟩ <;>
    simp [List.drop_append, hf, ha, hb, hc, List.take_of_length_le, List.drop_eq_nil_of_le]

/-- The three places of entries, the middle one cut by the fragments' border. -/
theorem historyFragments_places :
    ((historyFragment1 x).drop 5).take 8 = entryPlace x.entries 0 ∧
    ((historyFragment1 x).drop 13).take 3 ++ (historyFragment2 x).take 5 = entryPlace x.entries 1 ∧
    ((historyFragment2 x).drop 5).take 8 = entryPlace x.entries 2 := by
  have front : (be 3 x.machine ++ be 1 x.entries.length ++ be 1 x.generation).length = 5 := by simp
  have fragment1 : historyFragment1 x = (withCheck (historyBody x)).take 16 := by
    rw [historyFragment1, withCheck, List.take_append_of_le_length (by simp)]
  rw [fragment1, historyFragment2, withCheck]
  generalize be 2 (checkValue (historyBody x)).toNat = check
  unfold historyBody
  rw [List.append_assoc _ (be 1 x.idCheck)]
  exact cut_places front (entryPlace_length _ _) (entryPlace_length _ _) (entryPlace_length _ _)

/-- The check value that fragment 2 carries is that of the history's bytes. -/
theorem historyFragment2_check :
    field (historyFragment2 x) 14 2 = (checkValue (historyBody x)).toNat := by
  have behind := field_skip (historyBody x) (be 2 (checkValue (historyBody x)).toNat) 0 2
  rw [historyBody_length] at behind
  rw [field_historyFragment2, withCheck, behind, field_be_end]
  exact Nat.mod_eq_of_lt (checkValue _).isLt

theorem historyFragment1_machine (hm : x.machine < 2 ^ 24) : field (historyFragment1 x) 0 3 = x.machine := by
  rw [field_historyFragment1 x (by omega)]
  unfold historyBody
  simp only [List.append_assoc]
  rw [field_be]
  exact Nat.mod_eq_of_lt (by omega)

theorem historyFragment1_count (hl : x.entries.length ≤ 3) :
    field (historyFragment1 x) 3 1 = x.entries.length := by
  rw [field_historyFragment1 x (by omega)]
  unfold historyBody
  simp only [List.append_assoc]
  rw [show (3 : Nat) = 3 + 0 from rfl, field_past, field_be]
  exact Nat.mod_eq_of_lt (by omega)

theorem historyFragment1_generation (hg : x.generation < 2 ^ 8) :
    field (historyFragment1 x) 4 1 = x.generation := by
  rw [field_historyFragment1 x (by omega)]
  unfold historyBody
  simp only [List.append_assoc]
  rw [show (4 : Nat) = 3 + (1 + 0) from rfl, field_past, field_past, field_be]
  exact Nat.mod_eq_of_lt (by omega)

theorem historyFragment2_idCheck (hi : x.idCheck < 2 ^ 8) : field (historyFragment2 x) 13 1 = x.idCheck := by
  have front : (be 3 x.machine ++ be 1 x.entries.length ++ be 1 x.generation ++ entryPlace x.entries 0
      ++ entryPlace x.entries 1 ++ entryPlace x.entries 2).length + 0 = 16 + 13 := by simp
  rw [field_historyFragment2, withCheck]
  generalize checkValue (historyBody x) = check
  unfold historyBody
  rw [List.append_assoc, ← front, field_skip, field_be]
  exact Nat.mod_eq_of_lt (by omega)

/-- An entry in use reads back from its place. -/
theorem ofWire_entryPlace {i : Nat} {d : Draw} (hi : x.entries[i]? = some d) (hb : d.bowser ≤ 47)
    (ht : d.time < 2 ^ 32) (hv : d.volume < 2 ^ 24) :
    Draw.ofWire (wireDrawOf (entryPlace x.entries i)) = d := by
  unfold entryPlace
  rw [hi]
  dsimp only
  rw [wireDrawOf_bytes, Draw.ofWire_toWire hb ht hv]

end Fragments

/-- The three places of a history of at most three entries, cut at their number, are its entries. -/
theorem places_take {x : History} (hl : x.entries.length ≤ 3)
    (hd : ∀ d ∈ x.entries, d.bowser ≤ 47 ∧ d.time < 2 ^ 32 ∧ d.volume < 2 ^ 24) :
    [Draw.ofWire (wireDrawOf (entryPlace x.entries 0)), Draw.ofWire (wireDrawOf (entryPlace x.entries 1)),
      Draw.ofWire (wireDrawOf (entryPlace x.entries 2))].take x.entries.length = x.entries := by
  have back : ∀ {i : Nat} {d : Draw}, x.entries[i]? = some d →
      Draw.ofWire (wireDrawOf (entryPlace x.entries i)) = d := by
    intro i d hi
    obtain ⟨hb, ht, hv⟩ := hd d (List.mem_of_getElem? hi)
    exact ofWire_entryPlace x hi hb ht hv
  have get : ∀ (i : Nat) (hi : i < x.entries.length),
      Draw.ofWire (wireDrawOf (entryPlace x.entries i)) = x.entries[i] := fun i hi =>
    back (List.getElem?_eq_getElem hi)
  refine List.ext_getElem (by simp; omega) (fun i h1 h2 => ?_)
  rw [List.getElem_take]
  match i, h2 with
  | 0, h2 => exact get 0 h2
  | 1, h2 => exact get 1 h2
  | 2, h2 => exact get 2 h2
  | n + 3, h2 => omega

/-- Settles O14: every field is read where it was put, the check matches and every entry is one of a bowser. -/
theorem tagHistoryReadsBack : Obligations.TagHistoryReadsBack := by
  intro x hvalid hm hi hg hl hd
  obtain ⟨place0, place1, place2⟩ := historyFragments_places x
  have entries := places_take hl (fun d hm => (hd d hm).2)
  have bowsers : x.entries.all (fun d => decide (1 ≤ d.bowser) && decide (d.bowser ≤ 47)) = true := by
    rw [List.all_eq_true]
    intro d hmem
    obtain ⟨low, high, _⟩ := hd d hmem
    simp [low, high]
  unfold historyOf
  dsimp only
  rw [historyFragments_body, historyFragment2_check, historyFragment1_count x hl, place0, place1, place2, entries,
    bowsers, historyFragment1_machine x hm, historyFragment1_generation x hg, historyFragment2_idCheck x hi]
  simp [hl, ← hvalid]

end Sys2Proof.Machine

/-! The channel and the transmit queue (sections 1.2 and 1.3). -/

namespace Sys2Proof.Machine

/-! ### Carrier sense (R3, R12) -/

theorem exec_carrierSenseActive {s : State} (hp : s.power = .released) :
    exec .carrierSenseActive s = .next (if s.lc.carrier then s else carrierUp s) := if_pos hp

theorem exec_carrierSenseInactive (rest : List Byte) {s : State} (hp : s.power = .released) :
    exec (.carrierSenseInactive rest) s = .next (if s.lc.carrier then carrierDown rest s else s) :=
  if_pos hp

/-- Bytes of a bad length, taken in, count once and leave the frame judged. -/
theorem receiveLine_of_badLength {rest : List Byte} {s : State} (htx : s.lc.tx = none) (hrx : s.lc.rx = .receiving)
    (hj : judgeBytes rest = .badLength) : receiveLine rest s = { s with lc := { s.lc with
      rx := .judged, counters := { s.lc.counters with length := satInc max16 s.lc.counters.length } } } := by
  unfold receiveLine
  rw [if_pos (by simp [receiving, htx, hrx])]
  simp only [judgeLine, hj, updCounters, markJudged, hrx, if_true]

/-- Settles O15: what the edges change, and what a cut-off frame's bytes are judged. -/
theorem carrierSenseEdges : Obligations.CarrierSenseEdges := by
  intro s hp
  refine ⟨fun hc => ?_, fun hc htx => ?_, fun rest hc htx hrx hne hj => ?_⟩
  · rw [exec_carrierSenseActive hp, hc]
    rfl
  · rw [exec_carrierSenseInactive [] hp, hc]
    simp [carrierDown, judgeRest, htx]
  · rw [exec_carrierSenseInactive rest hp, hc]
    have judged : judgeRest rest s = receiveLine rest s := if_neg (by simp [hne])
    simp only [if_true, carrierDown, judged, receiveLine_of_badLength htx hrx hj, htx, Option.isNone_none]

/-! ### The idle gap, the slots and record spacing (R3, R4, R6) -/

theorem exec_idleGap {s : State} (hp : s.power = .released) :
    exec .idleGap s = .next (atDue (gapDue s) s gapMetNow) := if_pos hp

theorem exec_backoffSlot {s : State} (hp : s.power = .released) :
    exec .backoffSlot s = .next (atDue (slotDue s) s slotPasses) := if_pos hp

theorem exec_recordSpacingIdleTotal {s : State} (hp : s.power = .released) :
    exec .recordSpacingIdleTotal s = .next (atDue (spacingDue s) s spacingReleases) := if_pos hp

/-- With nothing waiting no countdown starts. -/
theorem lcKick_of_queue_nil {s : State} (hq : s.lc.queue = []) : lcKick s = s := by
  unfold lcKick
  rw [hq]

/-- While a countdown runs none starts. -/
theorem lcKick_of_countdown {s : State} {c : Countdown} (hc : s.lc.countdown = some c) : lcKick s = s := by
  unfold lcKick
  rw [hc]
  split <;> trivial

/-- With the gap not met a countdown of the head frame begins that does not count yet. -/
theorem lcKick_starts {s : State} {f : TxFrame} {rest : List TxFrame} (hq : s.lc.queue = f :: rest)
    (hc : s.lc.countdown = none) (htx : s.lc.tx = none) (hg : s.lc.gapMet = false)
    (hs : s.lc.spacing.held = false ∨ f.cls ≠ 4) :
    lcKick s = { s with
      draws := s.draws + 1,
      lc := { s.lc with countdown := some { left := backoffCount f.cls (Config.backoffDraw s.draws),
                                            counting := false, slotFrom := s.now } } } := by
  have free : ¬ (s.lc.spacing.held = true ∧ f.cls = 4) := by
    rintro ⟨held, four⟩
    rcases hs with h | h
    · simp [h] at held
    · exact h four
  unfold lcKick
  rw [hq, hc, htx]
  simp only [if_neg free, hg, Bool.false_eq_true, false_and, if_false]

/-- A transmission takes the head frame. -/
theorem startTx_cons {s : State} {f : TxFrame} {rest : List TxFrame} (hq : s.lc.queue = f :: rest) :
    startTx s = { s with lc := { s.lc with
      queue := rest, countdown := none, tx := some (f, s.now), gapMet := false,
      spacing := s.lc.spacing.pause s.now } } := by
  unfold startTx
  rw [hq]

/-- Settles O16: the countdown's count decides between counting on and sending. -/
theorem idleGapSlotsAndSpacing : Obligations.IdleGapSlotsAndSpacing := by
  intro s hp
  refine ⟨fun c hidle hgap hc => ?_, fun c hc hcount => ?_, fun t hheld hsince hq => ?_⟩
  · have due : gapDue s = some (s.lc.gapFrom + ms 3) := by simp [gapDue, hidle, hgap]
    refine ⟨fun hleft => ?_, fun f rest hleft hq => ?_⟩
    · rw [exec_idleGap hp, due, atDue_some]
      simp only [gapMetNow, reach_lc, hc, if_neg hleft.ne']
      rfl
    · refine ⟨_, exec_idleGap hp, ?_⟩
      rw [due, atDue_some]
      simp only [gapMetNow, reach_lc, hc, hleft, if_true]
      rw [startTx_cons (f := f) (rest := rest) (by exact hq)]
      exact ⟨rfl, rfl, rfl, rfl⟩
  · have due : slotDue s = some (c.slotFrom + ms 4) := by simp [slotDue, hc, hcount]
    refine ⟨fun hleft => ?_, fun f rest hleft hq => ?_⟩
    · rw [exec_backoffSlot hp, due, atDue_some]
      simp only [slotPasses, reach_lc, hc, if_neg (Nat.not_le.2 hleft)]
      rfl
    · refine ⟨_, exec_backoffSlot hp, ?_⟩
      rw [due, atDue_some]
      simp only [slotPasses, reach_lc, hc, if_pos hleft]
      rw [startTx_cons (f := f) (rest := rest) (by exact hq)]
      exact ⟨rfl, rfl, rfl, rfl, rfl⟩
  · have due : spacingDue s = some (t + (ms 250 - s.lc.spacing.idleTotal)) := by simp [spacingDue, hheld, hsince]
    rw [exec_recordSpacingIdleTotal hp, due, atDue_some, spacingReleases, lcKick_of_queue_nil (by exact hq)]
    rfl

/-! ### The end of an own transmission (R5, R11) -/

/-- TRANSMISSION_END with nothing more waiting: the channel is taken as after the frame, then its block is told. -/
theorem exec_transmissionEnd {s : State} {f : TxFrame} {began done : Nat} (hp : s.power = .released)
    (htx : s.lc.tx = some (f, began)) (hd : done = max s.now (began + (f.bytes.length + 1) * 10 * bitTime s)) :
    exec .transmissionEnd s = .next (lcKick (reportSent f (channelAfterTx f { s with now := done }))) := by
  have e : exec .transmissionEnd s = live s (fun s => match s.lc.tx with
    | some (f, began) => atDue (some (began + lineTime s f)) s (transmissionEnds f)
    | none => s) := rfl
  rw [e, live_released _ hp, htx, hd]
  rfl

/-- The channel after a frame that was no RECORD frame. -/
theorem channelAfterTx_plain {f : TxFrame} {s : State} (hf : f.cls ≠ 4) :
    channelAfterTx f s = { s with lc := { s.lc with
      tx := none, gapMet := false, gapFrom := s.now,
      spacing := { s.lc.spacing with idleSince := if s.lc.carrier then none else some s.now } } } := by
  simp only [channelAfterTx, if_neg hf]

/-- The channel after a RECORD frame holds the next one back. -/
theorem channelAfterTx_record {f : TxFrame} {s : State} (hf : f.cls = 4) :
    channelAfterTx f s = { s with lc := { s.lc with
      tx := none, gapMet := false, gapFrom := s.now,
      spacing := { held := true, count := 0, idleTotal := 0,
                   idleSince := if s.lc.carrier then none else some s.now } } } := by
  simp only [channelAfterTx, if_pos hf]

/-- With no candidate JU makes no offer. -/
theorem chooseOffer_of_none {s : State} (h : ∀ r ∈ s.ju.recs, r.candidate s.ju.mark s.now = false) :
    chooseOffer s = s := by
  unfold chooseOffer
  split
  · rw [List.find?_eq_none.2 (fun r hr => by simp [h r hr])]
  · rfl

/-- A record whose re-offer is still to come is no candidate. -/
theorem not_candidate_of_offered {r : JRec} {mark now due : Nat} (hs : r.state = .offered) (hd : r.dueAt = some due)
    (hn : now < due) : r.candidate mark now = false := by
  simp [JRec.candidate, hs, hd, hn]

theorem reofferInterval_pos (n : Nat) : 0 < reofferInterval n := by
  unfold reofferInterval sec
  split <;> omega

/-- The last fragment of the standing offer completes it, and with no other candidate none follows. -/
theorem fragmentSent_completes {s : State} {o : Offer} {index fragments : Nat} (ho : s.ju.offer = some o)
    (hi : index + 1 = fragments) (own : ∀ r ∈ s.ju.recs, r.number = o.number → r.state = .offered)
    (others : ∀ r ∈ s.ju.recs, r.number ≠ o.number → r.candidate s.ju.mark s.now = false) :
    fragmentSent o.serial index fragments s = { s with
      ju := { s.ju.upd o.number (fun r => { r with
        offers := satInc 255 r.offers,
        dueAt := some (s.now + reofferInterval (satInc 255 r.offers)) }) with offer := none } } := by
  unfold fragmentSent
  rw [ho]
  simp only [hi, and_self, if_true]
  apply chooseOffer_of_none
  intro r hr
  obtain ⟨x, hx, rfl⟩ := List.mem_map.1 hr
  by_cases hn : x.number = o.number
  · rw [if_pos hn]
    exact not_candidate_of_offered (own x hx hn) rfl (Nat.lt_add_of_pos_right (reofferInterval_pos _))
  · rw [if_neg hn]
    exact others x hx hn

/-- Settles O17: by the block that asked for the frame. -/
theorem transmissionEndsFreeTheChannel : Obligations.TransmissionEndsFreeTheChannel := by
  intro s f began done hp htx hq hd
  refine ⟨fun hf hown => ?_, fun hf hown hlink => ?_, fun h id m since hf hown hw => ?_,
    fun hf ho hown => ?_, fun o index fragments hf ho hown hi own others => ?_⟩
  · rw [exec_transmissionEnd hp htx hd, channelAfterTx_plain hf]
    rcases hown with hown | hown | hown <;>
    · simp only [reportSent, hown]
      exact congrArg Host.Outcome.next (lcKick_of_queue_nil hq)
  · rw [exec_transmissionEnd hp htx hd, channelAfterTx_plain hf]
    simp only [reportSent, hown, hlink, if_true]
    exact congrArg Host.Outcome.next (lcKick_of_queue_nil hq)
  · rw [exec_transmissionEnd hp htx hd, channelAfterTx_plain hf]
    simp only [reportSent, hown, querySent, hw, if_true]
    exact congrArg Host.Outcome.next (lcKick_of_queue_nil hq)
  · rw [exec_transmissionEnd hp htx hd, channelAfterTx_record hf]
    obtain ⟨serial, index, fragments, hown⟩ := hown
    simp only [reportSent, hown, fragmentSent, ho]
    exact congrArg Host.Outcome.next (lcKick_of_queue_nil hq)
  · rw [exec_transmissionEnd hp htx hd, channelAfterTx_record hf]
    simp only [reportSent, hown]
    rw [fragmentSent_completes (o := o) (by exact ho) hi (by exact own) (by exact others)]
    exact congrArg Host.Outcome.next (lcKick_of_queue_nil hq)

/-! ### Frames by class (R7 to R10) -/

/-- A frame's place divides the queue: none of a higher class before it, and the next behind it of a higher one. -/
theorem insertByClass_split (f : TxFrame) (q : List TxFrame) : ∃ front back, q = front ++ back ∧
    insertByClass f q = front ++ f :: back ∧ (∀ g ∈ front, g.cls ≤ f.cls) ∧
    (∀ g, back.head? = some g → f.cls < g.cls) := by
  induction q with
  | nil => exact ⟨[], [], rfl, rfl, by simp, by simp⟩
  | cons g rest ih =>
    unfold insertByClass
    by_cases hlt : f.cls < g.cls
    · rw [if_pos hlt]
      exact ⟨[], g :: rest, rfl, rfl, by simp, by simpa using hlt⟩
    · rw [if_neg hlt]
      obtain ⟨front, back, hq, hins, hfront, hback⟩ := ih
      refine ⟨g :: front, back, by rw [hq]; rfl, by rw [hins]; rfl, fun x hx => ?_, hback⟩
      rcases List.mem_cons.1 hx with rfl | hx
      · exact Nat.not_lt.1 hlt
      · exact hfront x hx

/-- A frame of a lower class than the head frame comes to the head. -/
theorem insertByClass_overtakes {f : TxFrame} {q : List TxFrame} (h : ∀ g, q.head? = some g → f.cls < g.cls) :
    insertByClass f q = f :: q := by
  cases q with
  | nil => rfl
  | cons g rest => exact if_pos (h g rfl)

/-- A frame that comes to the head ends the countdown of the frame it overtakes. -/
theorem placeFrame_overtakes {f : TxFrame} {s : State} (h : ∀ g, s.lc.queue.head? = some g → f.cls < g.cls) :
    placeFrame f s = lcKick { s with lc := { s.lc with queue := f :: s.lc.queue, countdown := none } } := by
  unfold placeFrame headClass
  rw [insertByClass_overtakes h]
  cases hq : s.lc.queue with
  | nil => rfl
  | cons g rest =>
    have lower : f.cls < g.cls := h g (by rw [hq]; rfl)
    simp [lower]

/-- A frame behind the head leaves the countdown. -/
theorem placeFrame_behind {f g : TxFrame} {s : State} (hg : s.lc.queue.head? = some g) (hle : g.cls ≤ f.cls) :
    placeFrame f s = lcKick { s with lc := { s.lc with queue := insertByClass f s.lc.queue } } := by
  unfold placeFrame headClass
  simp [hg, Nat.not_lt.2 hle]

/-- The newest offer is that of the last RECORD frame. -/
theorem newestOffer_append {front back : List TxFrame} {f : TxFrame} {serial : Nat}
    (hf : f.offerSerial = some serial) (hb : ∀ g ∈ back, g.offerSerial = none) :
    newestOffer (front ++ f :: back) = some serial := by
  have last : (f :: back).filterMap TxFrame.offerSerial = [serial] := by
    rw [List.filterMap_cons, hf, List.filterMap_eq_nil_iff.2 hb]
  rw [newestOffer, List.filterMap_append, last, List.getLast?_append, List.getLast?_singleton, Option.some_or]

theorem newestOffer_eq_none {q : List TxFrame} (h : ∀ g ∈ q, g.offerSerial = none) : newestOffer q = none := by
  rw [newestOffer, List.filterMap_eq_nil_iff.2 h]
  rfl

/-- A displaced offer's fragments leave, and with one at the head its countdown ends. -/
theorem removeOffer_eq (serial : Nat) (s : State) : removeOffer serial s = { s with lc := { s.lc with
    queue := s.lc.queue.filter (fun g => g.offerSerial != some serial),
    countdown := if s.lc.queue.head?.bind TxFrame.offerSerial = some serial then none else s.lc.countdown } } := by
  unfold removeOffer
  cases s.lc.queue.head? with
  | none => rfl
  | some g => simp

/-- What becomes of a frame asked for: refused in this link state, placed with room, a STATUS refused with none, any
other refused when no offer can make room, and otherwise placed where the newest offer has made room. -/
theorem enqueueFrame_refused {f : TxFrame} {s : State} (ht : lcTakes s f.owner = false) :
    enqueueFrame f s = (false, s) := by
  rw [enqueueFrame, if_pos ht]

theorem enqueueFrame_placed {f : TxFrame} {s : State} (ht : lcTakes s f.owner = true)
    (hl : s.lc.queue.length < 16) : enqueueFrame f s = (true, placeFrame f s) := by
  rw [enqueueFrame, if_neg (by simp [ht]), if_pos hl]

theorem enqueueFrame_full {f : TxFrame} {s : State} (ht : lcTakes s f.owner = true)
    (hl : 16 ≤ s.lc.queue.length) (h : f.owner = .status ∨ newestOffer s.lc.queue = none) :
    enqueueFrame f s = (false, s) := by
  rw [enqueueFrame, if_neg (by simp [ht]), if_neg (by omega)]
  by_cases hs : f.owner = .status
  · rw [if_pos hs]
  · rw [if_neg hs, h.resolve_left hs]

theorem enqueueFrame_displaces {f : TxFrame} {s : State} {serial : Nat} (ht : lcTakes s f.owner = true)
    (hl : 16 ≤ s.lc.queue.length) (hs : f.owner ≠ .status) (hn : newestOffer s.lc.queue = some serial) :
    enqueueFrame f s = (true, chooseOffer (placeFrame f (offerDiscarded serial (removeOffer serial s)))) := by
  rw [enqueueFrame, if_neg (by simp [ht]), if_neg (by omega), if_neg hs, hn]

/-- A count lies in its class's range, whatever number was drawn. -/
theorem backoffCount_range (n : Nat) : backoffCount 1 n < 8 ∧ (8 ≤ backoffCount 2 n ∧ backoffCount 2 n < 16) ∧
    (16 ≤ backoffCount 3 n ∧ backoffCount 3 n < 32) ∧ (32 ≤ backoffCount 4 n ∧ backoffCount 4 n < 64) := by
  simp only [backoffCount, backoffRange]
  omega

/-- Settles O18: a frame's place, the full queue, and the countdown it leaves. -/
theorem framesWaitByClass : Obligations.FramesWaitByClass := by
  intro f s
  refine ⟨insertByClass_split f s.lc.queue, enqueueFrame_placed, fun ht hl h => ?_, enqueueFrame_refused,
    fun serial front k m b back ht hl hs hq hback => ?_, fun o ho => ?_, fun hover hg htx hs => ?_,
    fun g c hg hle hc => ?_, backoffCount_range⟩
  · exact enqueueFrame_full ht hl (h.imp_right newestOffer_eq_none)
  · rw [enqueueFrame_displaces ht hl hs (by rw [hq]; exact newestOffer_append rfl hback), removeOffer_eq]
  · simp only [offerDiscarded, ho, if_true]
  · rw [placeFrame_overtakes hover, lcKick_starts (by rfl) (by rfl) (by exact htx) (by exact hg) (by exact hs)]
  · rw [placeFrame_behind hg hle, lcKick_of_countdown (by exact hc)]

end Sys2Proof.Machine

/-! Frames heard (sections 1.4 and 1.5, chapter 3): HELLO, RECORD, STATUS, DRAW, ANSWER and QUERY. -/

namespace Sys2Proof.Machine

/-! ### What a heard frame leaves -/

section Heard
variable (s : State)
@[simp] theorem heard_pending : (heard s).pending = s.pending := by rw [heard_eq]
@[simp] theorem heard_power : (heard s).power = s.power := by rw [heard_eq]
@[simp] theorem heard_warned : (heard s).warned = s.warned := by rw [heard_eq]
@[simp] theorem heard_warnPending : (heard s).warnPending = s.warnPending := by rw [heard_eq]
@[simp] theorem heard_now : (heard s).now = s.now := by rw [heard_eq]
@[simp] theorem heard_cfg : (heard s).cfg = s.cfg := by rw [heard_eq]
@[simp] theorem heard_store : (heard s).store = s.store := by rw [heard_eq]
@[simp] theorem heard_tiu : (heard s).tiu = s.tiu := by rw [heard_eq]
@[simp] theorem heard_mt : (heard s).mt = s.mt := by rw [heard_eq]
@[simp] theorem heard_au : (heard s).au = s.au := by rw [heard_eq]
@[simp] theorem heard_mu : (heard s).mu = s.mu := by rw [heard_eq]
@[simp] theorem heard_hc : (heard s).hc = s.hc := by rw [heard_eq]
@[simp] theorem heard_pump : (heard s).pump = s.pump := by rw [heard_eq]
@[simp] theorem heard_ju : (heard s).ju = s.ju := by rw [heard_eq]
@[simp] theorem heard_pbu : (heard s).pbu = s.pbu := by rw [heard_eq]
@[simp] theorem heard_su : (heard s).su = s.su := by rw [heard_eq]
@[simp] theorem heard_sc : (heard s).sc = s.sc := by rw [heard_eq]
@[simp] theorem heard_pp : (heard s).pp = s.pp := by rw [heard_eq]
@[simp] theorem heard_prove : (heard s).prove = s.prove := by rw [heard_eq]
@[simp] theorem heard_inspect : (heard s).inspect = s.inspect := by rw [heard_eq]
@[simp] theorem heard_lc_startNumber : (heard s).lc.startNumber = s.lc.startNumber := by rw [heard_lc_eq]; rfl
@[simp] theorem heard_lc_listenAt : (heard s).lc.listenAt = s.lc.listenAt := by rw [heard_lc_eq]; rfl
@[simp] theorem heard_lc_settleAt : (heard s).lc.settleAt = s.lc.settleAt := by rw [heard_lc_eq]; rfl
@[simp] theorem heard_lc_joinedAt : (heard s).lc.joinedAt = s.lc.joinedAt := by rw [heard_lc_eq]; rfl
@[simp] theorem heard_lc_lastStatusAt : (heard s).lc.lastStatusAt = s.lc.lastStatusAt := by rw [heard_lc_eq]; rfl
@[simp] theorem heard_lc_carrier : (heard s).lc.carrier = s.lc.carrier := by rw [heard_lc_eq]; rfl
@[simp] theorem heard_lc_gapFrom : (heard s).lc.gapFrom = s.lc.gapFrom := by rw [heard_lc_eq]; rfl
@[simp] theorem heard_lc_counters : (heard s).lc.counters = s.lc.counters := by rw [heard_lc_eq]; rfl
@[simp] theorem heard_lc_reassembly : (heard s).lc.reassembly = s.lc.reassembly := by rw [heard_lc_eq]; rfl
@[simp] theorem heard_lc_claims : (heard s).lc.claims = s.lc.claims := by rw [heard_lc_eq]; rfl
@[simp] theorem heard_lc_clock : (heard s).lc.clock = s.lc.clock := by rw [heard_lc_eq]; rfl
@[simp] theorem heard_lc_sure : (heard s).lc.sure = s.lc.sure := by rw [heard_lc_eq]; rfl
@[simp] theorem heard_lc_hold : (heard s).lc.hold = s.lc.hold := by rw [heard_lc_eq]; rfl
@[simp] theorem heard_lc_nextCount : (heard s).lc.nextCount = s.lc.nextCount := by rw [heard_lc_eq]; rfl
@[simp] theorem heard_lc_nextStoring : (heard s).lc.nextStoring = s.lc.nextStoring := by rw [heard_lc_eq]; rfl


/-- A heard frame brings an ISOLATED link back, and leaves any other. -/
theorem heard_lc_link : (heard s).lc.link
    = if s.lc.link = .isolated ∧ s.warned = false then .joined else s.lc.link := by
  rw [heard_lc_eq]
  rfl

/-- Only an ISOLATED link is changed, so a WITHDRAWN one stays and no other becomes it. -/
theorem heard_lc_link_withdrawn : (heard s).lc.link = .withdrawn ↔ s.lc.link = .withdrawn := by
  rw [heard_lc_link]
  split
  · next h => simp [h.1]
  · rfl

/-- With record spacing not held a heard frame counts for none. -/
theorem heard_of_not_held (h : s.lc.spacing.held = false) : heard s = heardPlain s :=
  if_neg (by show ¬ s.lc.spacing.held = true; simp [h])

/-- While record spacing is held, the first two heard frames count. -/
theorem heard_counts (h : s.lc.spacing.held = true) (hc : s.lc.spacing.count < 2) :
    heard s = { heardPlain s with lc := { (heardPlain s).lc with
      spacing := { s.lc.spacing with count := s.lc.spacing.count + 1 } } } := by
  unfold heard spacingHeard
  dsimp only
  rw [if_pos (by exact h), if_neg (by show ¬ 3 ≤ s.lc.spacing.count + 1; omega)]
  rfl

/-- The third releases the spacing, and a waiting frame can begin its countdown. -/
theorem heard_releases (h : s.lc.spacing.held = true) (hc : 2 ≤ s.lc.spacing.count) :
    heard s = lcKick { heardPlain s with lc := { (heardPlain s).lc with
      spacing := { s.lc.spacing with count := 3, held := false } } } := by
  unfold heard spacingHeard
  dsimp only
  rw [if_pos (by exact h), if_pos (by show 3 ≤ s.lc.spacing.count + 1; omega)]
  rfl

/-- With nothing waiting a heard frame starts no countdown: the channel is left but for the spacing. -/
theorem heard_of_queue_nil (hq : s.lc.queue = []) : ∃ sp : Spacing,
    heard s = { heardPlain s with lc := { (heardPlain s).lc with spacing := sp } } := by
  by_cases hh : s.lc.spacing.held = true
  · by_cases hc : s.lc.spacing.count < 2
    · exact ⟨_, heard_counts s hh hc⟩
    · refine ⟨_, (heard_releases s hh (by omega)).trans (lcKick_of_queue_nil (by exact hq))⟩
  · exact ⟨s.lc.spacing, heard_of_not_held s (by simpa using hh)⟩

end Heard

/-! ### Conflicts (R21) -/

/-- A heard frame settles nothing of a conflict. -/
theorem conflicts_heard (source : Nat) (start : BitVec 16) (s : State) :
    conflicts source start (heard s) = conflicts source start s := by
  have link : ((heard s).lc.link != .withdrawn) = (s.lc.link != .withdrawn) := by
    rw [Bool.eq_iff_iff, bne_iff_ne, bne_iff_ne, ne_eq, heard_lc_link_withdrawn, ne_eq]
  simp only [conflicts, link, heard_cfg, heard_warned, heard_lc_startNumber]

/-- A conflict: the part's own station id with another start number, on a link neither withdrawn nor warned. -/
theorem conflicts_eq_true {source : Nat} {start : BitVec 16} {s : State} (hid : s.cfg.params.station = some source)
    (hs : start ≠ s.lc.startNumber) (hl : s.lc.link ≠ .withdrawn) (hw : s.warned = false) :
    conflicts source start s = true := by
  simp [conflicts, hid, hs, hl, hw]

/-- With nothing waiting a withdrawal reports nothing. -/
theorem withdrawLink_of_queue_nil {s : State} (hq : s.lc.queue = []) : withdrawLink s = { s with lc := { s.lc with
    link := .withdrawn, countdown := none, listenAt := none, settleAt := none, lastStatusAt := none } } := by
  unfold withdrawLink
  rw [hq, reportAll]
  rw [← hq]

/-! ### The link is left by what a discarded frame brings -/

@[simp] theorem openStage_lc (h : Hose) (s : State) : (openStage h s).lc = s.lc := rfl

@[simp] theorem joinPump_lc (h : Hose) (s : State) : (joinPump h s).lc = s.lc := rfl

@[simp] theorem joinHeld_lc (s : State) : (joinHeld s).lc = s.lc := by
  unfold joinHeld
  dsimp only
  repeat' split
  all_goals rfl

@[simp] theorem pumpRequest_lc (h : Hose) (s : State) : (pumpRequest h s).lc = s.lc := by
  unfold pumpRequest
  split
  · rfl
  · split
    · simp
    · simp
    · split
      · simp [startPump]
      · rfl

@[simp] theorem openRecord_lc (d : DispenseRec) (s : State) : (openRecord d s).lc = s.lc := by
  unfold openRecord
  split <;> rfl

@[simp] theorem grantSession_lc (h : Hose) (f : FixedPart) (t : Terms) (best : Binding × Nat) (s : State) :
    (grantSession h f t best s).lc = s.lc := by
  simp [grantSession, grantHose, muOpen, takePending]

@[simp] theorem releaseHeld_lc (h : Hose) (s : State) : (releaseHeld h s).lc = s.lc := by
  unfold releaseHeld
  split <;> rfl

@[simp] theorem requestRecord_lc (body : RecBody) (s : State) : (requestRecord body s).2.lc = s.lc := by
  unfold requestRecord
  split
  · rfl
  · exact takeRecord_lc s body

@[simp] theorem refuse_lc (h : Hose) (r : RefusalReason) (s : State) : (refuse h r s).lc = s.lc := by
  unfold refuse refusalRecord sessionNone
  dsimp only
  split <;> simp [takePending]

@[simp] theorem toGrant_lc (h : Hose) (s : State) : (toGrant h s).lc = s.lc := by
  unfold toGrant
  split
  · rfl
  · split
    · simp
    · dsimp only
      split <;> simp [ageEntry]

@[simp] theorem endWaitTable_lc (h : Hose) (m : Nat) (s : State) : (endWaitTable h m s).lc = s.lc := by
  unfold endWaitTable
  split <;> rfl

@[simp] theorem endWait_lc (h : Hose) (m : Nat) (s : State) : (endWait h m s).lc = s.lc := by
  unfold endWait waitEnded grantBlind
  split <;> simp

@[simp] theorem queryDiscarded_lc (h : Hose) (id : Nat) (s : State) : (queryDiscarded h id s).lc = s.lc := by
  unfold queryDiscarded
  split
  · split <;> simp
  · rfl

/-- The report of a discarded frame leaves the link. -/
@[simp] theorem reportDiscarded_lc (f : TxFrame) (s : State) : (reportDiscarded f s).lc = s.lc := by
  unfold reportDiscarded
  split
  · simp
  · rw [offerDiscarded_eq]
  · rfl

@[simp] theorem reportAll_lc (l : List TxFrame) (s : State) : (reportAll l s).lc = s.lc := by
  induction l generalizing s with
  | nil => rfl
  | cons f rest ih => rw [reportAll, ih, reportDiscarded_lc]

/-- A withdrawn link has no frame waiting. -/
@[simp] theorem withdrawLink_queue (s : State) : (withdrawLink s).lc.queue = [] := by simp [withdrawLink]

/-- A withdrawal leaves the configuration. -/
@[simp] theorem withdrawLink_cfg (s : State) : (withdrawLink s).cfg = s.cfg := (withdrawLink_onward s).cfg

/-! ### HELLO and RECORD -/

theorem exec_hello {s : State} {hd : Header} {start : BitVec 16} {product : Byte}
    (h : Hears s hd (.hello start product)) :
    exec (.hello hd start product) s = .next (conflictCheck hd.source.toNat start (heard s)) :=
  exec_frameCommand_of_hears s h

/-- A heard HELLO or STATUS that shows a conflict withdraws the link of the part that heard it. -/
theorem conflictCheck_heard {source : Nat} {start : BitVec 16} {s : State} (h : conflicts source start s = true) :
    conflictCheck source start (heard s) = withdrawLink (heard s) :=
  if_pos ((conflicts_heard source start s).trans h)

theorem conflictCheck_heard_none {source : Nat} {start : BitVec 16} {s : State}
    (h : conflicts source start s = false) : conflictCheck source start (heard s) = heard s :=
  if_neg (by rw [conflicts_heard, h]; simp)

/-- With nothing waiting, the link that a heard frame withdraws reports nothing. -/
theorem withdrawLink_heard {s : State} (hq : s.lc.queue = []) : withdrawLink (heard s)
    = { heard s with lc := { (heard s).lc with
        link := .withdrawn, countdown := none, listenAt := none, settleAt := none, lastStatusAt := none } } := by
  obtain ⟨sp, e⟩ := heard_of_queue_nil s hq
  exact withdrawLink_of_queue_nil (by rw [e]; exact hq)

/-- Settles O19: record spacing by its count, and the conflict by the withdrawal. -/
theorem helloAndRecordAreHeard : Obligations.HelloAndRecordAreHeard := by
  intro s hd start product
  refine ⟨fun h hc => ?_, fun number index chunk h => exec_frameCommand_of_hears s h, heard_of_not_held s,
    heard_counts s, fun hh hc hq => ?_, fun f rest hh hc hq hcd htx hg => ?_, fun h hid hs hl hw => ⟨fun hq => ?_, ?_⟩⟩
  · rw [exec_hello h, conflictCheck_heard_none hc]
  · rw [heard_releases s hh hc, lcKick_of_queue_nil (by exact hq)]
  · rw [heard_releases s hh hc, lcKick_starts (by exact hq) (by exact hcd) (by exact htx) (by exact hg)
      (by exact .inl rfl)]
    rfl
  · rw [exec_hello h, conflictCheck_heard (conflicts_eq_true hid hs hl hw), withdrawLink_heard hq]
  · exact ⟨_, (exec_hello h).trans (by rw [conflictCheck_heard (conflicts_eq_true hid hs hl hw)]),
      withdrawLink_queue _⟩

end Sys2Proof.Machine

/-! The claims list and the Machine Table, as heard STATUS, DRAW, ANSWER and QUERY frames change them (sections 3.1,
3.2, 3.7 and 10.7). -/

namespace Sys2Proof.Machine

/-! ### The claims list (R190) -/

theorem mem_insertClaim {c x : Claim} {l : List Claim} : x ∈ insertClaim c l ↔ x = c ∨ x ∈ l := by
  induction l with
  | nil => simp [insertClaim]
  | cons y rest ih =>
    unfold insertClaim
    split
    · simp
    · simp only [List.mem_cons, ih]
      exact or_left_comm

/-- The claim dropped from a list is one of it, longest unheard and of two as old the one with the lower id. -/
theorem claimToDrop_spec {l : List Claim} (hl : l ≠ []) : ∃ gone ∈ l, claimToDrop l = some gone ∧
    ∀ c ∈ l, gone.heardAt < c.heardAt ∨ gone.heardAt = c.heardAt ∧ gone.station ≤ c.station := by
  induction l with
  | nil => exact absurd rfl hl
  | cons c rest ih =>
    unfold claimToDrop
    by_cases hr : rest = []
    · subst hr
      exact ⟨c, by simp, rfl, by simp⟩
    · obtain ⟨best, hbest, hdrop, hmin⟩ := ih hr
      rw [hdrop]
      dsimp only
      split
      · refine ⟨c, by simp, rfl, fun x hx => ?_⟩
        rcases List.mem_cons.1 hx with rfl | hx
        · omega
        · have := hmin x hx
          omega
      · refine ⟨best, by simp [hbest], rfl, fun x hx => ?_⟩
        rcases List.mem_cons.1 hx with rfl | hx
        · omega
        · exact hmin x hx

section Claims
variable (l : List Claim) (station cover now : Nat)

theorem mem_claimsAfter_false (c : Claim) :
    c ∈ claimsAfter l station cover now false ↔ c ∈ l ∧ c.station ≠ station := by
  simp [claimsAfter]

/-- With room, or with a claim of the station there, a claim takes no other's place. -/
theorem mem_claimsAfter_true (h : l.length < 16 ∨ ∃ c ∈ l, c.station = station) (c : Claim) :
    c ∈ claimsAfter l station cover now true ↔
      c = { station := station, cover := cover, heardAt := now } ∨ c ∈ l ∧ c.station ≠ station := by
  have room : (if l.any (fun x => x.station == station) then l.filter (fun x => x.station != station)
      else claimRoom (l.filter (fun x => x.station != station))) = l.filter (fun x => x.station != station) := by
    split
    · rfl
    · next hany =>
      have short : l.length < 16 := by
        refine h.resolve_right ?_
        rintro ⟨x, hx, hs⟩
        exact hany (List.any_eq_true.2 ⟨x, hx, by simp [hs]⟩)
      unfold claimRoom
      rw [if_pos ((List.length_filter_le _ _).trans_lt short)]
  unfold claimsAfter
  rw [if_pos rfl, room, mem_insertClaim]
  simp

/-- In a full list of other stations a claim takes the place of the one to drop. -/
theorem mem_claimsAfter_full (hl : 16 ≤ l.length) (hs : ∀ c ∈ l, c.station ≠ station) : ∃ gone ∈ l,
    (∀ c ∈ l, gone.heardAt < c.heardAt ∨ gone.heardAt = c.heardAt ∧ gone.station ≤ c.station) ∧
    ∀ c, c ∈ claimsAfter l station cover now true ↔
      c = { station := station, cover := cover, heardAt := now } ∨ c ∈ l ∧ c.station ≠ gone.station := by
  obtain ⟨gone, hgone, hdrop, hmin⟩ := claimToDrop_spec (l := l) (by rintro rfl; simp at hl)
  have others : l.filter (fun x => x.station != station) = l :=
    List.filter_eq_self.2 (fun c hc => by simp [hs c hc])
  have absent : ¬ l.any (fun x => x.station == station) = true := by
    rw [List.any_eq_true]
    rintro ⟨c, hc, e⟩
    exact hs c hc (by simpa using e)
  refine ⟨gone, hgone, hmin, fun c => ?_⟩
  unfold claimsAfter claimRoom
  dsimp only
  rw [if_pos rfl, if_neg absent, others, if_neg (by omega), hdrop, mem_insertClaim]
  simp

end Claims

/-- A heard STATUS is checked for a conflict and then updates the claims list. -/
theorem exec_status {s : State} {hd : Header} {b : StatusBody} (h : Hears s hd (.status b)) :
    exec (.status hd b) s
      = .next (heardClaim hd.source.toNat b (conflictCheck hd.source.toNat b.startNumber (heard s))) :=
  exec_frameCommand_of_hears s h

/-- A STATUS of a station that is not another bowser leaves the list. -/
theorem heardClaim_ignored {source : Nat} {b : StatusBody} {s : State}
    (h : 48 ≤ source ∨ s.cfg.params.station = some source) : heardClaim source b s = s := by
  refine if_neg ?_
  rintro ⟨_, high, other⟩
  rcases h with h | h
  · omega
  · exact other h

theorem conflicts_of_other {source : Nat} {start : BitVec 16} {s : State} (h : s.cfg.params.station ≠ some source) :
    conflicts source start s = false := by simp [conflicts, h]

/-! ### The draw lists (R47, R48) -/

/-- A merge ages the list and, unless the draw is no draw, too old or there already, puts it among the newest 8. -/
theorem Entry.merge_draws (e : Entry) (clock : Nat) (d : Draw) : (e.merge clock d).draws =
    (let aged := e.draws.filter (fun x => decide (clock ≤ x.time + e.window))
     if d.volume = 0 ∨ d.time + e.window < clock ∨ (∃ x ∈ aged, x.bowser = d.bowser ∧ x.time = d.time) then aged
     else (insertDraw d aged).take 8) := by
  have same : ∀ l : List Draw, l.any (Draw.same d) = true ↔ ∃ x ∈ l, x.bowser = d.bowser ∧ x.time = d.time := by
    intro l
    rw [List.any_eq_true]
    exact exists_congr fun x => and_congr_right fun _ => by
      simp only [Draw.same, Bool.and_eq_true, decide_eq_true_eq]
      rw [eq_comm, eq_comm (a := d.time)]
  unfold Entry.merge
  dsimp only [Entry.aged, ageDraws]
  simp only [same]
  split <;> rfl

/-- It changes nothing else of the entry. -/
theorem Entry.merge_rest (e : Entry) (clock : Nat) (d : Draw) : { e.merge clock d with draws := e.draws } = e := by
  unfold Entry.merge
  dsimp only
  split <;> rfl

/-! ### The entries of the table (R42, R43) -/

section Entries

/-- Changing the entry of a machine changes what is found for it. -/
theorem Mt.find_upd_self {mt : Mt} {m : Nat} {f : Entry → Entry} (hf : ∀ e, (f e).machine = e.machine) :
    (mt.upd m f).find m = (mt.find m).map f := by
  obtain ⟨entries, evictions, wait, serial⟩ := mt
  show (List.map _ entries).find? _ = (entries.find? _).map f
  induction entries with
  | nil => rfl
  | cons e rest ih =>
    rw [List.map_cons, List.find?_cons, List.find?_cons]
    by_cases he : e.machine = m
    · simp [he, hf]
    · simp only [he, if_false, beq_eq_false_iff_ne.2 he]
      exact ih

/-- It leaves every other machine's. -/
theorem Mt.find_upd_of_ne {mt : Mt} {m n : Nat} {f : Entry → Entry} (hf : ∀ e, (f e).machine = e.machine)
    (hn : n ≠ m) : (mt.upd m f).find n = mt.find n := by
  obtain ⟨entries, evictions, wait, serial⟩ := mt
  show (List.map _ entries).find? _ = entries.find? _
  induction entries with
  | nil => rfl
  | cons e rest ih =>
    rw [List.map_cons, List.find?_cons, List.find?_cons, ih]
    by_cases he : e.machine = m
    · have other : (m == n) = false := beq_eq_false_iff_ne.2 hn.symm
      simp [he, hf, other]
    · rw [if_neg he]

theorem find_insertEntry_self {e : Entry} {l : List Entry} (h : l.find? (fun x => x.machine == e.machine) = none) :
    (insertEntry e l).find? (fun x => x.machine == e.machine) = some e := by
  induction l with
  | nil => simp [insertEntry]
  | cons x rest ih =>
    obtain ⟨hx, hrest⟩ : ¬ (x.machine == e.machine) = true ∧
        rest.find? (fun x => x.machine == e.machine) = none := by
      rw [List.find?_cons] at h
      split at h
      · exact absurd h (by simp)
      · next hne => exact ⟨by simp [hne], h⟩
    unfold insertEntry
    split
    · simp
    · rw [List.find?_cons_of_neg (p := fun x : Entry => x.machine == e.machine) hx]
      exact ih hrest

theorem find_insertEntry_of_ne {e : Entry} {l : List Entry} {n : Nat} (hn : n ≠ e.machine) :
    (insertEntry e l).find? (fun x => x.machine == n) = l.find? (fun x => x.machine == n) := by
  have other : ¬ (e.machine == n) = true := by simpa using hn.symm
  induction l with
  | nil => simp [insertEntry, hn.symm]
  | cons x rest ih =>
    unfold insertEntry
    split
    · rw [List.find?_cons_of_neg (p := fun x : Entry => x.machine == n) other]
    · rw [List.find?_cons, List.find?_cons, ih]

/-- A machine that has an entry keeps it. -/
theorem Mt.ensure_of_find {mt : Mt} {m clock : Nat} {e : Entry} (h : mt.find m = some e) : mt.ensure m clock = mt :=
  if_pos (.inl (by rw [h]; rfl))

/-- A new entry for a machine id without one. -/
def newEntry (m clock : Nat) : Entry :=
  { machine := m, fixed := none, draws := [], fresh := none, lastUse := clock, busy := none }

/-- With room a machine without an entry gets a new one. -/
theorem Mt.ensure_new {mt : Mt} {m clock : Nat} (h : mt.find m = none) (hr : mt.makeRoom.entries.length < 48) :
    mt.ensure m clock
      = { mt.makeRoom with entries := insertEntry (newEntry m clock) mt.makeRoom.entries } :=
  if_neg (by rintro (hs | hl) <;> [(rw [h] at hs; exact absurd hs (by simp)); omega])

/-- The entry to evict is not busy, longest unused, and of two as old the one with the lower machine id. -/
theorem evictionChoice_spec {l : List Entry} {gone : Entry} (h : evictionChoice l = some gone) :
    gone ∈ l ∧ gone.busy = none ∧ ∀ e ∈ l, e.busy = none →
      gone.lastUse < e.lastUse ∨ gone.lastUse = e.lastUse ∧ gone.machine ≤ e.machine := by
  have noneBusy : ∀ {l : List Entry}, evictionChoice l = none → ∀ e ∈ l, e.busy ≠ none := by
    intro l
    induction l with
    | nil => simp
    | cons e rest ih =>
      intro hn
      unfold evictionChoice at hn
      split at hn
      · next hrest =>
        split at hn
        · exact absurd hn (by simp)
        · next hb =>
          intro x hx
          rcases List.mem_cons.1 hx with rfl | hx
          · exact hb
          · exact ih hrest x hx
      · split at hn <;> exact absurd hn (by simp)
  induction l generalizing gone with
  | nil => exact absurd h (by simp [evictionChoice])
  | cons e rest ih =>
    unfold evictionChoice at h
    split at h
    · next hrest =>
      split at h
      · next hb =>
        obtain rfl := Option.some.inj h
        refine ⟨by simp, hb, fun x hx hxb => ?_⟩
        rcases List.mem_cons.1 hx with rfl | hx
        · omega
        · exact absurd hxb (noneBusy hrest x hx)
      · exact absurd h (by simp)
    · next best hrest =>
      obtain ⟨hmem, hbusy, hmin⟩ := ih hrest
      split at h
      · next hc =>
        obtain rfl := Option.some.inj h
        refine ⟨by simp, hc.1, fun x hx hxb => ?_⟩
        rcases List.mem_cons.1 hx with rfl | hx
        · omega
        · have := hmin x hx hxb
          omega
      · next hc =>
        obtain rfl := Option.some.inj h
        refine ⟨by simp [hmem], hbusy, fun x hx hxb => ?_⟩
        rcases List.mem_cons.1 hx with rfl | hx
        · by_contra hlt
          exact hc ⟨hxb, by omega⟩
        · exact hmin x hx hxb

variable {mt : Mt} {m clock : Nat} {f : Entry → Entry} (hf : ∀ e, (f e).machine = e.machine)
include hf

theorem Mt.touch_of_find {e : Entry} (h : mt.find m = some e) :
    (mt.touch m clock f).find m = some (f e) ∧ (mt.touch m clock f).evictions = mt.evictions ∧
      ∀ n, n ≠ m → (mt.touch m clock f).find n = mt.find n := by
  unfold Mt.touch
  rw [Mt.ensure_of_find h]
  exact ⟨by rw [Mt.find_upd_self hf, h]; rfl, rfl, fun n hn => Mt.find_upd_of_ne hf hn⟩

/-- A machine without an entry is found with a new one, changed, and every machine that had one with its own. -/
theorem Mt.touch_new (h : mt.find m = none) (hr : mt.makeRoom.entries.length < 48)
    (hroom : mt.makeRoom.find m = none) :
    (mt.touch m clock f).find m = some (f (newEntry m clock)) ∧
      (mt.touch m clock f).evictions = mt.makeRoom.evictions ∧
      ∀ n, n ≠ m → (mt.touch m clock f).find n = mt.makeRoom.find n := by
  have inserted : ({ mt.makeRoom with entries := insertEntry (newEntry m clock) mt.makeRoom.entries } : Mt).find m
      = some (newEntry m clock) := find_insertEntry_self (e := newEntry m clock) hroom
  unfold Mt.touch
  rw [Mt.ensure_new h hr]
  refine ⟨by rw [Mt.find_upd_self hf, inserted]; rfl, rfl, fun n hn => ?_⟩
  rw [Mt.find_upd_of_ne hf hn]
  exact find_insertEntry_of_ne (e := newEntry m clock) hn

end Entries

/-- With fewer than 48 entries room is there. -/
theorem Mt.makeRoom_of_lt {mt : Mt} (h : mt.entries.length < 48) : mt.makeRoom = mt := if_pos h

/-- In a full table the entry to evict goes, and that counts. -/
theorem Mt.makeRoom_full {mt : Mt} {gone : Entry} (h : 48 ≤ mt.entries.length)
    (hg : evictionChoice mt.entries = some gone) : mt.makeRoom = { mt with
      entries := mt.entries.filter (fun x => x.machine != gone.machine), evictions := satInc max16 mt.evictions } := by
  unfold Mt.makeRoom
  rw [if_neg (by omega), hg]

/-- An eviction leaves every other machine's entry. -/
theorem find_filter_of_ne {l : List Entry} {gone n : Nat} (hn : n ≠ gone) :
    (l.filter (fun x => x.machine != gone)).find? (fun x => x.machine == n) = l.find? (fun x => x.machine == n) := by
  rw [List.find?_filter]
  congr 1
  funext x
  by_cases hx : x.machine = n
  · simp [hx, hn]
  · simp [hx]

/-- With 48 entries an eviction leaves a machine that had none without one. -/
theorem find_filter_eq_none {l : List Entry} {gone m : Nat} (h : l.find? (fun x => x.machine == m) = none) :
    (l.filter (fun x => x.machine != gone)).find? (fun x => x.machine == m) = none := by
  rw [List.find?_eq_none] at h ⊢
  exact fun x hx => h x (List.mem_of_mem_filter hx)

/-! ### DRAW and ANSWER (R52, R53) -/

theorem exec_draw {s : State} {hd : Header} {m : BitVec 24} {d : WireDraw} (h : Hears s hd (.draw m d)) :
    exec (.draw hd m d) s = .next (heardDraw hd.source.toNat m.toNat d (heard s)) := exec_frameCommand_of_hears s h

theorem exec_answer {s : State} {hd : Header} {m : BitVec 24} {ds : List WireDraw} (h : Hears s hd (.answer m ds)) :
    exec (.answer hd m ds) s = .next (heardAnswer hd.source.toNat m.toNat ds (heard s)) :=
  exec_frameCommand_of_hears s h

theorem BitVec.toNat_eq_zero_iff {w : Nat} {x : BitVec w} : x.toNat = 0 ↔ x = 0 := by
  rw [← BitVec.toNat_inj]
  rfl

/-- A DRAW about no machine, or of another bowser than its sender, changes nothing of the table. -/
theorem heardDraw_refused {source : BitVec 6} {m : BitVec 24} {d : WireDraw} {s : State}
    (h : m = 0 ∨ d.bowser ≠ source) : heardDraw source.toNat m.toNat d s = s := by
  refine if_pos (h.imp (fun e => by rw [e]; rfl) (fun e hb => e (BitVec.toNat_inj.1 hb)))

theorem heardDraw_taken {source : BitVec 6} {m : BitVec 24} {d : WireDraw} {s : State} (hm : m ≠ 0)
    (hd : d.bowser = source) : heardDraw source.toNat m.toNat d s
      = { s with mt := s.mt.touch m.toNat s.lc.clock (fun e =>
          { e.merge s.lc.clock (Draw.ofWire d) with fresh := some s.lc.clock }) } := by
  refine if_neg ?_
  rintro (e | e)
  · exact hm (BitVec.toNat_eq_zero_iff.1 e)
  · exact e (congrArg BitVec.toNat hd)

/-- A carried draw is of another bowser than the sender. -/
theorem any_other_bowser {source : BitVec 6} {ds : List WireDraw} :
    (ds.map Draw.ofWire).any (fun d => d.bowser != source.toNat) = true ↔ ∃ x ∈ ds, x.bowser ≠ source := by
  simp [Draw.ofWire, BitVec.toNat_inj]

theorem heardAnswer_refused {source : BitVec 6} {m : BitVec 24} {ds : List WireDraw} {s : State}
    (h : m = 0 ∨ ∃ x ∈ ds, x.bowser ≠ source) : heardAnswer source.toNat m.toNat ds s = s :=
  if_pos (h.imp (fun e => by rw [e]; rfl) any_other_bowser.2)

theorem heardAnswer_taken {source : BitVec 6} {m : BitVec 24} {ds : List WireDraw} {s : State} (hm : m ≠ 0)
    (hd : ∀ x ∈ ds, x.bowser = source) : heardAnswer source.toNat m.toNat ds s
      = { s with mt := s.mt.touch m.toNat s.lc.clock (fun e => e.mergeAll s.lc.clock (ds.map Draw.ofWire)) } := by
  refine if_neg ?_
  rintro (e | e)
  · exact hm (BitVec.toNat_eq_zero_iff.1 e)
  · obtain ⟨x, hx, hne⟩ := any_other_bowser.1 e
    exact hne (hd x hx)

/-- Settles O20: the claims list, the two merges, and the table's entries. -/
theorem heardClaimsAndDrawsAreKept : Obligations.HeardClaimsAndDrawsAreKept := by
  refine ⟨fun s hd b h => ⟨fun low high other => ?_, fun high other => ?_, fun own hs => ?_,
      fun own hs hl hw => ⟨fun hq => ?_, _, exec_status h, ?_⟩⟩,
    fun l station cover now => ⟨mem_claimsAfter_false l station cover now, mem_claimsAfter_true l station cover now,
      mem_claimsAfter_full l station cover now⟩,
    fun s hd m d ds => ⟨fun h hm hb => ?_, fun h hr => ?_, fun h hm hb => ?_, fun h hr => ?_⟩,
    fun e clock d => ⟨e.merge_draws clock d, e.merge_rest clock d⟩,
    fun mt m clock f hf => ⟨fun e he => Mt.touch_of_find hf he, fun hn hl => ?_, fun gone hn hl hg hlen => ?_⟩⟩
  · rw [exec_status h, conflictCheck_heard_none (conflicts_of_other other)]
    unfold heardClaim
    rw [if_pos ⟨low, high, by rw [heard_cfg]; exact other⟩]
    simp only [heard_lc_claims, heard_now]
  · rw [exec_status h, conflictCheck_heard_none (conflicts_of_other other), heardClaim_ignored (.inl high)]
  · rw [exec_status h, conflictCheck_heard_none (by simp [conflicts, hs]),
      heardClaim_ignored (.inr (by rw [heard_cfg]; exact own))]
  · rw [exec_status h, conflictCheck_heard (conflicts_eq_true own hs hl hw),
      heardClaim_ignored (.inr (by rw [withdrawLink_cfg, heard_cfg]; exact own)), withdrawLink_heard hq]
  · rw [conflictCheck_heard (conflicts_eq_true own hs hl hw),
      heardClaim_ignored (.inr (by rw [withdrawLink_cfg, heard_cfg]; exact own)), withdrawLink_queue]
  · rw [exec_draw h, heardDraw_taken hm hb, heard_mt, heard_lc_clock]
  · rw [exec_draw h, heardDraw_refused hr]
  · rw [exec_answer h, heardAnswer_taken hm hb, heard_mt, heard_lc_clock]
  · rw [exec_answer h, heardAnswer_refused hr]
  · have room := Mt.makeRoom_of_lt hl
    have made := Mt.touch_new (clock := clock) hf hn (by rw [room]; exact hl) (by rw [room]; exact hn)
    rw [room] at made
    exact made
  · obtain ⟨hmem, hbusy, hmin⟩ := evictionChoice_spec hg
    have room := Mt.makeRoom_full hl hg
    obtain ⟨found, evictions, others⟩ := Mt.touch_new (clock := clock) hf hn (by rw [room]; exact hlen)
      (by rw [room]; exact find_filter_eq_none hn)
    rw [room] at evictions others
    exact ⟨hmem, hbusy, hmin, found, evictions, fun n hnm hng => (others n hnm).trans (find_filter_of_ne hng)⟩

/-! ### QUERY (R62) -/

theorem exec_query {s : State} {hd : Header} {m : BitVec 24} {w : Byte} (h : Hears s hd (.query m w)) :
    exec (.query hd m w) s = .next (heardQuery m.toNat w.toNat (heard s)) := exec_frameCommand_of_hears s h

/-- A QUERY about a machine with an entry: its list is aged, and with own draws an ANSWER is asked for. -/
theorem heardQuery_of_find {m w : Nat} {s : State} {e : Entry} {id : Nat} (hm : m ≠ 0) (hw : 1 ≤ w) (hw' : w ≤ 168)
    (he : s.mt.find m = some e) (hid : s.cfg.params.station = some id) :
    heardQuery m w s = if (ownDraws id s.lc.clock w (e.aged s.lc.clock).draws).isEmpty then ageEntry m s
      else (enqueueFrame (answerFrame id m (ownDraws id s.lc.clock w (e.aged s.lc.clock).draws)) (ageEntry m s)).2 := by
  unfold heardQuery
  rw [if_neg (by omega), he]
  simp only [hid, stationId, Option.getD_some]

/-- In a released part that hears, nothing is in transmission. -/
theorem Hears.tx {s : State} {hd : Header} {body : FrameBody} (h : Hears s hd body) : s.lc.tx = none := by
  have := h.receives
  simp only [receiving, Bool.and_eq_true, Option.isNone_iff_eq_none] at this
  exact this.1

/-- Settles O21: the answer is placed at the head of an empty queue, and its countdown begins. -/
theorem heardQueryIsAnswered : Obligations.HeardQueryIsAnswered := by
  intro s hd m w e id own h hm hw hw' he hid hown
  have answered := heardQuery_of_find (s := heard s) (fun z => hm (BitVec.toNat_eq_zero_iff.1 z)) hw hw'
    (by rw [heard_mt]; exact he) (by rw [heard_cfg]; exact hid)
  rw [heard_lc_clock, ← hown] at answered
  refine ⟨fun hne hwarn hl hq hcd hg => ⟨_, exec_query h, ?_⟩, fun hnil => ⟨_, ?_, rfl⟩⟩
  · obtain ⟨sp, eh⟩ := heard_of_queue_nil s hq
    have takes : lcTakes (ageEntry m.toNat (heard s)) (answerFrame id m.toNat own).owner = true := by
      simp [lcTakes, ageEntry, heard_lc_link, hwarn, hl]
    have placed := enqueueFrame_placed (f := answerFrame id m.toNat own) takes
      (by simp [ageEntry, eh, heardPlain, hq])
    have empty : (ageEntry m.toNat (heard s)).lc.queue = [] := by simp [ageEntry, eh, heardPlain, hq]
    have started := placeFrame_overtakes (f := answerFrame id m.toNat own) (s := ageEntry m.toNat (heard s))
      (by simp [empty])
    rw [lcKick_starts (by rfl) (by rfl) (by simp [ageEntry, eh, heardPlain, h.tx])
      (by simp [ageEntry, eh, heardPlain, hg]) (by exact .inr (by simp [answerFrame]))] at started
    rw [answered, if_neg (by simpa using hne), placed, started]
    refine ⟨by rw [empty], by simp [ageEntry, eh, heardPlain, h.tx], ⟨_, rfl, (backoffCount_range _).1, rfl⟩, ?_, ?_, ?_⟩
    · exact heard_ju s
    · exact heard_hc s
    · exact heard_su s
  · rw [exec_query h, answered, if_pos (by simp [hnil])]
    unfold ageEntry
    rw [heard_mt, heard_lc_clock]

end Sys2Proof.Machine

/-! MARKs, deliveries, and frames that fail a check (sections 1.4, 1.6, 8.7 and 10.8). -/

namespace Sys2Proof.Machine

/-! ### The switch test (R169) -/

/-- With no PENDING bank no switch is due. -/
theorem switchTest_of_no_pending {s : State} (h1 : s.pbu.banks.one.state ≠ .pending)
    (h2 : s.pbu.banks.two.state ≠ .pending) : switchTest s = s := by
  have which : s.pbu.banks.which (· == .pending) = none := by simp [Banks.which, h1, h2]
  have due : switchDue s = none := by
    unfold switchDue
    rw [which]
    split <;> rfl
  unfold switchTest
  rw [due]

/-! ### The site clock takes a MARK (R26) -/

/-- The switch test's condition, after a MARK has been taken into the clock. -/
theorem clockMarked_of_no_pending (old : Lc) {s : State} (h1 : s.pbu.banks.one.state ≠ .pending)
    (h2 : s.pbu.banks.two.state ≠ .pending) : clockMarked old s = { s with lc := { s.lc with sure := true } } := by
  unfold clockMarked
  dsimp only
  rw [switchTest_of_no_pending (by exact h1) (by exact h2), ite_self]

section ClockMark
variable {t : Nat} {s : State}

theorem clockMark_ahead (h : s.lc.clock + 2 < t) : clockMark t s = clockMarked s.lc
    (scAsk .lc { s with lc := { s.lc with clock := t, hold := none, nextCount := s.now + sec 1 } }) := by
  unfold clockMark
  dsimp only
  rw [if_pos h]

theorem clockMark_behind (h : t + 2 < s.lc.clock) : clockMark t s = clockMarked s.lc
    { s with lc := { s.lc with hold := some (s.now + sec (s.lc.clock - t)) } } := by
  unfold clockMark
  dsimp only
  rw [if_neg (by omega), if_pos h]

theorem clockMark_ends_hold (h1 : s.lc.clock ≤ t + 2) (h2 : t ≤ s.lc.clock + 2) (hh : s.lc.hold.isSome = true) :
    clockMark t s = clockMarked s.lc { s with lc := { s.lc with hold := none, nextCount := s.now + sec 1 } } := by
  unfold clockMark
  dsimp only
  rw [if_neg (by omega), if_neg (by omega), if_pos hh]

theorem clockMark_near (h1 : s.lc.clock ≤ t + 2) (h2 : t ≤ s.lc.clock + 2) (hh : s.lc.hold = none) :
    clockMark t s = clockMarked s.lc s := by
  unfold clockMark
  dsimp only
  rw [if_neg (by omega), if_neg (by omega), if_neg (by simp [hh])]

end ClockMark

/-- A MARK aimed at another bowser sets the clock alone. -/
theorem exec_mark_other {s : State} {hd : Header} {target : Byte} {n time : BitVec 32}
    (h : Hears s hd (.mark target n time)) (ho : s.cfg.params.station ≠ some target.toNat) :
    exec (.mark hd target n time) s = .next (clockMark time.toNat (heard s)) := by
  refine (exec_frameCommand_of_hears s h).trans (congrArg Host.Outcome.next (if_neg ?_))
  rw [heard_cfg]
  exact ho

/-- A MARK aimed at the part sets the clock and then goes to the journal. -/
theorem exec_mark_own {s : State} {hd : Header} {target : Byte} {n time : BitVec 32}
    (h : Hears s hd (.mark target n time)) (ho : s.cfg.params.station = some target.toNat) :
    exec (.mark hd target n time) s = .next (takeMark n.toNat (clockMark time.toNat (heard s))) := by
  refine (exec_frameCommand_of_hears s h).trans (congrArg Host.Outcome.next (if_pos ?_))
  rw [heard_cfg]
  exact ho

/-- Of the link, a write's contents hold the clock's value alone. -/
theorem writeContents_of_clock (r : Requester) {s : State} {lc : Lc} (h : lc.clock = s.lc.clock) :
    writeContents r { s with lc := lc } = writeContents r s := by
  cases r with
  | lc => exact congrArg WriteContents.clock h
  | _ => rfl

/-- So a request leaves SC the same when the rest of the link differs. -/
theorem scAsk_sc_of_clock (r : Requester) {s : State} {lc : Lc} (h : lc.clock = s.lc.clock) :
    (scAsk r { s with lc := lc }).sc = (scAsk r s).sc := by
  unfold scAsk
  dsimp only
  split
  · rfl
  · unfold scKick
    dsimp only
    split
    · next x rest hc hq =>
      exact congrArg (fun w => ({ s.sc with queue := rest, current := some (x, w) } : Sc))
        (writeContents_of_clock x (s := { s with sc := { s.sc with queue := s.sc.queue ++ [r] } }) h)
    · rfl

/-- Settles O22: the four places of the collector time about the clock. -/
theorem markSetsTheSiteClock : Obligations.MarkSetsTheSiteClock := by
  intro s hd target n time h ho hone htwo
  have marked : ∀ {u : State}, u.pbu = s.pbu →
      clockMarked (heard s).lc u = { u with lc := { u.lc with sure := true } } := fun e =>
    clockMarked_of_no_pending _ (by rw [e]; exact hone) (by rw [e]; exact htwo)
  refine ⟨fun h1 h2 hh => ?_, fun h1 h2 hh => ?_, fun h1 => ⟨_, exec_mark_other h ho, ?_⟩, fun h1 => ?_⟩
  · rw [exec_mark_other h ho, clockMark_near (by simpa using h1) (by simpa using h2) (by simpa using hh),
      marked (heard_pbu s)]
  · rw [exec_mark_other h ho, clockMark_ends_hold (by simpa using h1) (by simpa using h2) (by simpa using hh),
      marked (by exact heard_pbu s)]
    simp only [heard_now]
  · rw [clockMark_ahead (by simpa using h1), marked (by rw [scAsk_pbu]; exact heard_pbu s)]
    simp only [scAsk_lc, scAsk_su, scAsk_pbu, scAsk_mt]
    refine ⟨by rw [heard_now], ?_, heard_su s, heard_pbu s, heard_mt s⟩
    exact (scAsk_sc_of_clock (lc := { (heard s).lc with
        clock := time.toNat, sure := true, hold := none, nextCount := (heard s).now + sec 1 })
      .lc (s := { heard s with lc := { (heard s).lc with
        clock := time.toNat, hold := none, nextCount := (heard s).now + sec 1 } }) rfl).symm
  · rw [exec_mark_other h ho, clockMark_behind (by simpa using h1), marked (by exact heard_pbu s)]
    simp only [heard_now, heard_lc_clock]

/-! ### The journal takes a MARK (R159) -/

theorem startTx_eq (s : State) : startTx s = { s with lc := (startTx s).lc } := by
  unfold startTx
  split <;> rfl

/-- An offer accepted or refused by LC changes the link and the numbers drawn. -/
theorem enqueueOffer_eq (serial : Nat) (frames : List (List Byte)) (s : State) :
    (enqueueOffer serial frames s).2 = { s with
      draws := (enqueueOffer serial frames s).2.draws, lc := (enqueueOffer serial frames s).2.lc } := by
  unfold enqueueOffer
  split
  · dsimp only
    rw [lcKick_eq]
  · rfl

/-- An offer made or refused changes the link, the numbers drawn, and JU's offering. -/
theorem offerRecord_eq (r : JRec) (s : State) : offerRecord r s = { s with
    draws := (offerRecord r s).draws, lc := (offerRecord r s).lc,
    ju := { s.ju with
      recs := (offerRecord r s).ju.recs, offer := (offerRecord r s).ju.offer, serial := (offerRecord r s).ju.serial,
      retryAt := (offerRecord r s).ju.retryAt, reoffers := (offerRecord r s).ju.reoffers,
      rollover := (offerRecord r s).ju.rollover } } := by
  have asked := enqueueOffer_eq s.ju.serial (recordFrames (stationId s) r.number r.time r.sure r.body) s
  unfold offerRecord
  dsimp only
  split
  · next heq =>
    rw [heq] at asked
    dsimp only at asked
    rw [asked]
    rfl
  · next heq =>
    rw [heq] at asked
    dsimp only at asked
    rw [asked]

/-- So does JU's choice of an offer. -/
theorem chooseOffer_eq (s : State) : chooseOffer s = { s with
    draws := (chooseOffer s).draws, lc := (chooseOffer s).lc,
    ju := { s.ju with
      recs := (chooseOffer s).ju.recs, offer := (chooseOffer s).ju.offer, serial := (chooseOffer s).ju.serial,
      retryAt := (chooseOffer s).ju.retryAt, reoffers := (chooseOffer s).ju.reoffers,
      rollover := (chooseOffer s).ju.rollover } } := by
  unfold chooseOffer
  split
  · split
    · exact offerRecord_eq _ s
    · rfl
  · rfl

/-- A change of the record with a number keeps every number. -/
theorem map_number_upd {ju : Ju} {n : Nat} {f : JRec → JRec} (hf : ∀ r, (f r).number = r.number) :
    (ju.upd n f).recs.map JRec.number = ju.recs.map JRec.number := by
  show (ju.recs.map _).map _ = _
  rw [List.map_map]
  refine List.map_congr_left (fun r _ => ?_)
  show JRec.number (if r.number = n then f r else r) = _
  split
  · exact hf r
  · rfl

/-- An offer leaves every record its number. -/
theorem chooseOffer_numbers (s : State) : (chooseOffer s).ju.recs.map JRec.number = s.ju.recs.map JRec.number := by
  unfold chooseOffer
  split
  · split
    · next r _ =>
      have asked := enqueueOffer_eq s.ju.serial (recordFrames (stationId s) r.number r.time r.sure r.body) s
      unfold offerRecord
      dsimp only
      split
      · next heq =>
        rw [heq] at asked
        dsimp only at asked
        rw [asked]
        exact map_number_upd (fun _ => rfl)
      · next heq =>
        rw [heq] at asked
        dsimp only at asked
        rw [asked]
    · rfl
  · rfl

theorem serveWaiting_of_nil {s : State} (h : s.ju.waiting = []) : serveWaiting s = s := by
  unfold serveWaiting
  rw [h, serveList]

theorem takeMark_collects {n : Nat} {s : State} (h1 : s.ju.mark < n) (h2 : n ≤ s.ju.highestClosed) :
    takeMark n s = chooseOffer (writeListAdd .mark (serveWaiting
      { s with ju := { s.ju with recs := s.ju.recs.drop (n - s.ju.mark), mark := n } })) := by
  unfold takeMark
  rw [if_neg (by omega), if_pos h2]

/-- Settles O23: the three places of a number about the mark and the highest closed sequence. -/
theorem markCollectsTheRecords : Obligations.MarkCollectsTheRecords := by
  intro s n
  refine ⟨fun h => if_pos h, takeMark_collects, fun h1 h2 hw => ?_, fun h => ?_, fun hd target number time h ho hn => ?_⟩
  · have numbers := chooseOffer_numbers (writeListAdd .mark
      { s with ju := { s.ju with recs := s.ju.recs.drop (n - s.ju.mark), mark := n } })
    rw [takeMark_collects h1 h2, serveWaiting_of_nil (by exact hw)]
    refine ⟨?_, ?_, ?_, ?_, ?_⟩
    · rw [chooseOffer_eq]; simp
    · rw [chooseOffer_eq]; simp
    · rw [numbers, writeListAdd_ju_recs]
    · rw [chooseOffer_eq]; simp
    · rw [chooseOffer_eq]; simp
  · have above : s.ju.mark ≤ s.ju.highestClosed := Nat.le_add_right _ _
    unfold takeMark
    rw [if_neg (by omega), if_neg (by omega)]
  · rw [exec_mark_own h ho, hn]

/-! ### Deliveries (R192, R193) -/

theorem exec_delivery {s : State} {hd : Header} {target : Byte} {n : BitVec 16} {v : BitVec 24} {time : BitVec 32}
    (h : Hears s hd (.delivery target n v time)) (ho : s.cfg.params.station = some target.toNat) :
    exec (.delivery hd target n v time) s
      = .next (delivery hd.source.toNat n.toNat v.toNat time.toNat (heard s)) := by
  refine (exec_frameCommand_of_hears s h).trans (congrArg Host.Outcome.next (if_pos ?_))
  rw [heard_cfg]
  exact ho

/-- A free slot before the warning takes a record. -/
theorem requestRecord_taken {body : RecBody} {s : State} (hw : s.warned = false) (hf : 0 < s.ju.free) :
    requestRecord body s = (some (s.ju.counter + 1), takeRecord body s) :=
  if_neg (by rintro (h | h) <;> [simp [hw] at h; omega])

/-- No free slot, or the warning, takes none. -/
theorem requestRecord_refused {body : RecBody} {s : State} (h : s.warned = true ∨ s.ju.free = 0) :
    requestRecord body s = (none, s) := if_pos h

section Delivery
variable {source number volume time : Nat} {s : State}

theorem delivery_bad (h : volume < 10000 ∨ 4000000 < volume) : delivery source number volume time s
    = { s with su := { s.su with badDelivery := satInc max16 s.su.badDelivery } } := if_pos h

theorem delivery_duplicate (h1 : 10000 ≤ volume) (h2 : volume ≤ 4000000)
    (hm : s.su.memory.contains (source, number) = true) : delivery source number volume time s
      = { s with su := { s.su with duplicateDelivery := satInc max16 s.su.duplicateDelivery } } := by
  unfold delivery
  rw [if_neg (by omega), if_pos hm]

theorem delivery_taken (h1 : 10000 ≤ volume) (h2 : volume ≤ 4000000)
    (hm : s.su.memory.contains (source, number) = false) (hw : s.warned = false) (hf : 0 < s.ju.free) :
    delivery source number volume time s =
      (let after := bookAdd s.su.book ((volume : Int) * 10000)
       acceptDelivery source number volume time (overCapacity s.cfg.params after)
        (takeRecord (.delivery source number volume (bookCl after) (overCapacity s.cfg.params after)) s)) := by
  unfold delivery
  rw [if_neg (by omega), if_neg (by rw [hm]; simp)]
  dsimp only
  rw [requestRecord_taken hw hf]

theorem delivery_notRecorded (h1 : 10000 ≤ volume) (h2 : volume ≤ 4000000)
    (hm : s.su.memory.contains (source, number) = false) (h : s.warned = true ∨ s.ju.free = 0) :
    delivery source number volume time s = { s with su := { s.su with
      notRecorded := satInc max16 s.su.notRecorded, notRecordedUntil := some (s.now + sec 10) } } := by
  unfold delivery
  rw [if_neg (by omega), if_neg (by rw [hm]; simp)]
  dsimp only
  rw [requestRecord_refused h]

end Delivery

/-- Settles O26: the checks of a delivery in their order. -/
theorem deliveryRaisesTheBook : Obligations.DeliveryRaisesTheBook := by
  intro s hd target n v time h ho
  refine ⟨fun h1 h2 hm hw hf => ⟨_, exec_delivery h ho, ?_⟩, fun hv => ?_, fun h1 h2 hm => ?_, fun h1 h2 hm hr => ?_⟩
  · rw [delivery_taken h1 h2 (by rw [heard_su]; exact hm) (by rw [heard_warned]; exact hw)
      (by rw [heard_ju]; exact hf)]
    simp [acceptDelivery, reevaluateClaim]
  · rw [exec_delivery h ho, delivery_bad hv, heard_su]
  · rw [exec_delivery h ho, delivery_duplicate h1 h2 (by rw [heard_su]; exact hm), heard_su]
  · rw [exec_delivery h ho, delivery_notRecorded h1 h2 (by rw [heard_su]; exact hm)
      (by rw [heard_warned, heard_ju]; exact hr)]
    simp only [heard_su, heard_now]

/-! ### Frames that fail a check (R13) -/

theorem exec_badFrame (line : List Byte) {s : State} (hp : s.power = .released) :
    exec (.badFrame line) s = .next (receiveLine line s) := if_pos hp

theorem exec_frameCommand (hd : Header) (body : FrameBody) {s : State} (hp : s.power = .released) :
    exec (frameCommand hd body) s = .next (receiveFields hd body s) := by
  cases body <;> exact if_pos hp

theorem receiveLine_of_receiving {line : List Byte} {s : State} (hr : receiving s = true) :
    receiveLine line s = judgeLine line (markJudged s) := if_pos hr

/-- Settles O27: the bytes and the fields by their first three checks, both by the checks from the fourth on. -/
theorem framesThatFailACheckAreOnlyCounted : Obligations.FramesThatFailACheckAreOnlyCounted := by
  refine ⟨fun s hp hr => ⟨fun line => ?_, fun hd body => ?_⟩, fun s hp hr line hd body => ?_, fun s hd body => ?_⟩
  · have judged := (exec_badFrame line hp).trans (congrArg Host.Outcome.next (receiveLine_of_receiving hr))
    refine ⟨fun hj => ?_, fun hj => ?_, fun hj => ?_, fun hd body hj => ?_⟩ <;>
    · rw [judged, judgeLine, hj]
  · rw [exec_frameCommand hd body hp, receiveFields, if_pos hr]
    exact ⟨fun hl => congrArg Host.Outcome.next (if_neg (by simp [hl])),
      fun hl => congrArg Host.Outcome.next (if_pos hl)⟩
  · rw [exec_badFrame line hp, exec_frameCommand hd body hp, receiveLine, receiveFields, if_neg (by simp [hr]),
      if_neg (by simp [hr])]
    exact ⟨rfl, rfl⟩
  · have cfg : (markJudged s).cfg = s.cfg := rfl
    have heardIt : heardFrame (markJudged s) = heard s := rfl
    refine ⟨fun h1 => ?_, fun h1 h2 => ?_, fun h1 h2 h3 => ?_, fun h1 h2 h3 => ?_⟩ <;>
      simp [checkFrame, *]

end Sys2Proof.Machine

/-! Price books: the fragments of a load, its end, and the switch (sections 1.5 and 9.2 to 9.3). -/

namespace Sys2Proof.Machine

/-! ### Price frames (R15, R16) -/

/-- A PRICE frame heard goes to LC's account of fragments. -/
theorem exec_price {s : State} {hd : Header} {i : Byte} {b : PriceBody} (h : Hears s hd (.price i b)) :
    exec (.price hd i b) s = .next (priceFrame hd i.toNat b (heard s)) :=
  exec_frameCommand_of_hears s h

theorem priceFrame_begin {hd : Header} {i : Nat} {b : PriceBody} {s : State} (hb : hd.beginFlag = true)
    (hi : i = 0) : priceFrame hd i b s = beginFragment hd b s := by
  unfold priceFrame
  rw [if_pos hb, if_pos hi]

/-- The fragment the open reassembly waits for. -/
theorem priceFrame_next {hd : Header} {i : Nat} {b : PriceBody} {s : State} {r : Reassembly}
    (hb : hd.beginFlag = false) (hr : s.lc.reassembly = some r) (hs : r.source = hd.source.toNat)
    (hi : i = r.next) : priceFrame hd i b s = nextFragment r hd b s := by
  unfold priceFrame
  simp [hb, hr, hs, hi]

/-- A fragment of the open source with another index. -/
theorem priceFrame_outOfTurn {hd : Header} {i : Nat} {b : PriceBody} {s : State} {r : Reassembly}
    (hb : hd.beginFlag = false) (hr : s.lc.reassembly = some r) (hs : r.source = hd.source.toNat)
    (hi : i ≠ r.next) : priceFrame hd i b s = fragmentDiscard (abandonReassembly s) := by
  unfold priceFrame
  simp [hb, hr, hs, hi]

/-- A begin fragment with another index than 0, or a fragment of no open reassembly, only counts. -/
theorem priceFrame_discarded {hd : Header} {i : Nat} {b : PriceBody} {s : State}
    (h : hd.beginFlag = true ∧ i ≠ 0 ∨ hd.beginFlag = false ∧
      (∀ x, s.lc.reassembly = some x → x.source ≠ hd.source.toNat)) :
    priceFrame hd i b s = fragmentDiscard s := by
  unfold priceFrame
  rcases h with ⟨hb, hi⟩ | ⟨hb, hx⟩
  · rw [if_pos hb, if_neg hi]
  · rw [if_neg (by simp [hb])]
    split
    · rfl
    · next r hr => rw [if_pos (hx r hr)]

theorem abandonReassembly_of_no_load {s : State} (h : s.pbu.load = none) :
    abandonReassembly s = { s with lc := { s.lc with reassembly := none } } := by
  unfold abandonReassembly bookAbandoned
  dsimp only
  rw [h]

theorem abandonReassembly_of_load {s : State} {l : Load} (h : s.pbu.load = some l) :
    abandonReassembly s = askBanks { s with
      lc := { s.lc with reassembly := none },
      pbu := { s.pbu with
        banks := s.pbu.banks.put l.target Bank.empty, load := none, badBook := satInc max16 s.pbu.badBook } } := by
  unfold abandonReassembly bookAbandoned
  dsimp only
  rw [h]
  rfl

theorem abandonReassembly_now (s : State) : (abandonReassembly s).now = s.now := by
  cases hl : s.pbu.load with
  | none => rw [abandonReassembly_of_no_load hl]
  | some l => rw [abandonReassembly_of_load hl, askBanks_now]

/-! ### A load begins (R166) -/

theorem BankState.holdsNext_eq : BankState.holdsNext = fun x => x == .pending || x == .loading := by
  funext x
  cases x <;> rfl

theorem beginAccepted_iff (s : State) (n count : Nat) : beginAccepted s n count = true ↔
    n ≠ 0 ∧ 1 ≤ count ∧ count ≤ 16 ∧ s.pbu.switchState ≠ .writing ∧
      (∀ k, s.pbu.banks.number (· == .active) = some k → k < n) ∧
      (∀ k, s.pbu.banks.number (fun x => x == .pending || x == .loading) = some k → k ≤ n) := by
  rw [← BankState.holdsNext_eq]
  unfold beginAccepted
  cases s.pbu.banks.number (· == .active) <;>
    cases s.pbu.banks.number BankState.holdsNext <;>
      simp [and_assoc]

/-- A requester other than the switch is not the switch's. -/
theorem sameRequester_switch : (fun x => !WaitReq.sameRequester (.priceBook 0 0) x)
    = (fun x => match x with | .priceBook _ _ => false | _ => true) := by
  funext x
  cases x <;> rfl

/-- A switch that waited is withdrawn from the journal's list; else nothing is. -/
theorem withdrawSwitch_eq (s : State) : withdrawSwitch s = { s with
    ju := { s.ju with waiting := if s.pbu.switchState = .waiting
      then s.ju.waiting.filter (fun x => match x with | .priceBook _ _ => false | _ => true)
      else s.ju.waiting },
    pbu := { s.pbu with switchState := if s.pbu.switchState = .waiting then .idle else s.pbu.switchState } } := by
  unfold withdrawSwitch
  split
  · unfold withdrawWaiting
    rw [sameRequester_switch]
  · rfl

theorem bookBegin_accepted {n eff count : Nat} {s : State} (h : beginAccepted s n count = true) :
    bookBegin n eff count s = askBanks { s with
      ju := { s.ju with waiting := if s.pbu.switchState = .waiting
        then s.ju.waiting.filter (fun x => match x with | .priceBook _ _ => false | _ => true)
        else s.ju.waiting },
      pbu := { s.pbu with
        switchState := if s.pbu.switchState = .waiting then .idle else s.pbu.switchState,
        banks := s.pbu.banks.put s.pbu.banks.target (Bank.mk .loading (some
          { number := n, effective := eff, count := count, entries := [], crc := 0 })),
        load := some { target := s.pbu.banks.target, received := 0, entries := [] } } } := by
  unfold bookBegin
  rw [if_pos h, withdrawSwitch_eq]
  rfl

theorem bookBegin_ignored {n eff count : Nat} {s : State} (h : beginAccepted s n count = false) :
    bookBegin n eff count s = { s with pbu := { s.pbu with ignoredBook := satInc max16 s.pbu.ignoredBook } } :=
  if_neg (by simp [h])

/-- A begin fragment opens a reassembly, an open one being abandoned first. -/
theorem beginFragment_begins {hd : Header} {n : BitVec 16} {eff : BitVec 32} {count : Byte} {s : State}
    (he : hd.endFlag = false) : beginFragment hd (.begins n eff count) s =
      (let u := if s.lc.reassembly.isSome then abandonReassembly s else s
       bookBegin n.toNat eff.toNat count.toNat { u with lc := { u.lc with
         reassembly := some { source := hd.source.toNat, next := 1, accepted := 1, lastAt := s.now } } }) := by
  have now : (if s.lc.reassembly.isSome then abandonReassembly s else s).now = s.now := by
    split
    · exact abandonReassembly_now s
    · rfl
  unfold beginFragment handFragment
  dsimp only
  rw [he, now, if_neg Bool.false_ne_true, if_neg Bool.false_ne_true]

/-- Settles O24: a fragment by its flags, its index and the open reassembly. -/
theorem priceBookLoadBegins : Obligations.PriceBookLoadBegins := by
  intro s hd r
  refine ⟨fun n eff count h hb he => ?_, abandonReassembly_of_no_load, fun l => abandonReassembly_of_load,
    fun n eff count => ⟨beginAccepted_iff s n count, bookBegin_accepted, bookBegin_ignored⟩,
    fun i e f h hr hs hi hb he => ?_, fun i b h hr hs hi hb => ?_, fun i b h hx => ?_⟩
  · rw [exec_price h, priceFrame_begin (i := (0 : Byte).toNat) hb rfl, beginFragment_begins he,
      heard_lc_reassembly, heard_now]
  · dsimp only
    rw [exec_price h, priceFrame_next hb (by rw [heard_lc_reassembly]; exact hr) hs hi]
    unfold nextFragment
    rw [if_neg (by simp [he])]
    simp only [Nat.reduceEqDiff, handFragment, bookEntries, Load.add, heard_pbu, heard_now]
  · rw [exec_price h, priceFrame_outOfTurn hb (by rw [heard_lc_reassembly]; exact hr) hs hi]
    rfl
  · rw [exec_price h, priceFrame_discarded (by
      rw [heard_lc_reassembly]
      exact hx.imp_left fun ⟨hb, hi⟩ => ⟨hb, hi⟩)]
    rfl

/-! ### A load ends (R168) -/

/-- With the clock not sure no switch is made. -/
theorem switchTest_of_not_sure {s : State} (h : s.lc.sure = false) : switchTest s = s := by
  have due : switchDue s = none := if_neg (by simp [h])
  unfold switchTest
  rw [due]

section BookEnd
variable {crc : Half} {s : State} {l : Load} {k : Book}

/-- A book that passes the three checks is PENDING. -/
theorem bookEnd_complete (hl : s.pbu.load = some l)
    (hk : loadedBook (s.pbu.banks.get l.target) l crc = some k) (hc : k.complete l.received = true) :
    bookEnd crc s = switchTest (setBank l.target { state := .pending, book := some k }
      { s with pbu := { s.pbu with load := none } }) := by
  unfold bookEnd
  rw [hl]
  dsimp only
  rw [hk]
  exact if_pos hc

/-- A book that fails a check is dropped. -/
theorem bookEnd_incomplete (hl : s.pbu.load = some l)
    (hk : loadedBook (s.pbu.banks.get l.target) l crc = some k) (hc : k.complete l.received = false) :
    bookEnd crc s = loadFails l.target s := by
  unfold bookEnd
  rw [hl]
  dsimp only
  rw [hk]
  exact if_neg (by simp [hc])

end BookEnd

theorem nextFragment_end {r : Reassembly} {hd : Header} {b : PriceBody} {s : State} (he : hd.endFlag = true) :
    nextFragment r hd b s = handFragment true b { s with lc := { s.lc with reassembly := none } } := if_pos he

/-! ### When the switch test is made (R24, R26) -/

theorem exec_siteClockCount {s : State} (hp : s.power = .released) : exec .siteClockCount s
    = .next (atDue (if s.lc.hold.isNone then some s.lc.nextCount else none) s clockCount) := if_pos hp

theorem exec_siteClockCount_of_no_hold {s : State} (hp : s.power = .released) (hh : s.lc.hold = none) :
    exec .siteClockCount s = .next (switchTest { s with
      now := max s.now s.lc.nextCount,
      lc := { s.lc with clock := satInc max32 s.lc.clock, nextCount := s.lc.nextCount + sec 1 } }) := by
  rw [exec_siteClockCount hp, hh]
  rfl

/-- A MARK that makes the clock sure, or ends a hold, is followed by the switch test. -/
theorem clockMarked_tests {old : Lc} {s : State} (h : old.sure = false ∨ old.hold.isSome ∧ s.lc.hold.isNone) :
    clockMarked old s = switchTest { s with lc := { s.lc with sure := true } } := by
  unfold clockMarked
  exact if_pos (h.imp_right .inr)

/-! ### The switch (R169, R170) -/

section Switch
variable {s : State} {i : BankId} {k : Book}

/-- The PENDING book whose time a sure clock has reached. -/
theorem switchTest_due (hw : s.pbu.switchState = .idle) (hi : s.pbu.banks.which (· == .pending) = some i)
    (hk : (s.pbu.banks.get i).book = some k) (hs : s.lc.sure = true) (ht : k.effective ≤ s.lc.clock) :
    switchTest s = requestOrWait (.priceBook k.number ((s.pbu.banks.number (· == .active)).getD 0)) s := by
  have due : switchDue s = some k := by
    unfold switchDue
    rw [if_pos ⟨hw, hs⟩, hi, Option.bind_some, hk]
    exact if_pos ht
  unfold switchTest
  rw [due]

/-- A book whose time has not come. -/
theorem switchTest_early (hi : s.pbu.banks.which (· == .pending) = some i)
    (hk : (s.pbu.banks.get i).book = some k) (ht : s.lc.clock < k.effective) : switchTest s = s := by
  have due : switchDue s = none := by
    unfold switchDue
    rw [hi, Option.bind_some, hk]
    split
    · exact if_neg (by omega)
    · rfl
  unfold switchTest
  rw [due]

end Switch

theorem requestOrWait_taken {r : WaitReq} {s : State} (hw : s.warned = false) (hf : 0 < s.ju.free) :
    requestOrWait r s = requesterTaken r (s.ju.counter + 1) (takeRecord r.body s) := by
  unfold requestOrWait
  rw [if_neg (by simp [hw]), if_pos hf]

theorem requestOrWait_waits {r : WaitReq} {s : State} (hw : s.warned = false) (hf : s.ju.free = 0) :
    requestOrWait r s = requesterWaiting r { s with ju := { s.ju with waiting := joinWaiting r s.ju.waiting } } := by
  unfold requestOrWait
  rw [if_neg (by simp [hw]), if_neg (by omega)]

/-- The first request of a requester goes to the end of the list. -/
theorem joinWaiting_of_none {r : WaitReq} {l : List WaitReq} (h : ∀ x ∈ l, r.sameRequester x = false) :
    joinWaiting r l = l ++ [r] := if_neg (by simpa using h)

/-- Settles O25: a load's end by its checks, the places of the switch test, and what the test does. -/
theorem priceBookLoadEnds : Obligations.PriceBookLoadEnds := by
  refine ⟨fun s crc l k hl hk => ⟨fun hc hs => ?_, fun hc => ?_, fun hd i r h hb he hr hsrc hi => ?_⟩,
    fun s hp hh => exec_siteClockCount_of_no_hold hp hh, fun s hd target n time h ho h1 h2 hh => ?_,
    fun s hd target n time h ho h1 h2 hh hs => ?_, fun s i k hw hi hk => ⟨?_, fun hs ht hwarn hf => ?_,
      fun hs ht hwarn hf hnone => ?_⟩, fun s => ⟨if_pos rfl, if_neg (by simp)⟩, fun book => ⟨rfl, rfl⟩⟩
  · rw [bookEnd_complete hl hk hc, switchTest_of_not_sure (by rw [setBank, askBanks_lc]; exact hs), setBank]
    exact ⟨askBanks_pbu_banks _, askBanks_pbu_load _, askBanks_pbu_badBook _⟩
  · rw [bookEnd_incomplete hl hk hc, loadFails, setBank]
    exact ⟨askBanks_pbu_banks _, askBanks_pbu_load _, askBanks_pbu_badBook _⟩
  · rw [exec_price h, priceFrame_next hb (by rw [heard_lc_reassembly]; exact hr) hsrc hi, nextFragment_end he]
    rfl
  · rw [exec_mark_other h ho, clockMark_ends_hold (by simpa using h1) (by simpa using h2) (by simpa using hh),
      clockMarked_tests (.inr ⟨by simpa using hh, rfl⟩)]
    simp only [heard_now]
  · rw [exec_mark_other h ho, clockMark_near (by simpa using h1) (by simpa using h2) (by simpa using hh),
      clockMarked_tests (.inl (by simpa using hs))]
  · rintro (hs | ht)
    · exact switchTest_of_not_sure hs
    · exact switchTest_early hi hk ht
  · dsimp only
    rw [switchTest_due hw hi hk hs ht, requestOrWait_taken hwarn hf]
    simp only [requesterTaken, WaitReq.body, takeRecord_pbu]
  · rw [switchTest_due hw hi hk hs ht, requestOrWait_waits hwarn hf, joinWaiting_of_none fun x hx => ?_]
    · rfl
    · cases x with
      | priceBook a b => exact absurd rfl (hnone _ hx a b)
      | prove p => rfl
      | adjust d sup => rfl

end Sys2Proof.Machine

/-! The link's own times and the site clock (sections 1.5 to 1.7). -/

namespace Sys2Proof.Machine

/-- A time-driven command of a released part. -/
theorem live_atDue {s : State} {due : State → Option Nat} {f : State → State} {d : Nat}
    (hp : s.power = .released) (hd : due s = some d) :
    live s (fun s => atDue (due s) s f) = .next (f (s.reach d)) := by
  rw [live_released _ hp]
  show Host.Outcome.next (atDue (due s) s f) = _
  rw [hd, atDue_some]

theorem linkDue_of_link {s : State} {states : LinkState → Bool} {due : Option Nat} (hw : s.warned = false)
    (hl : states s.lc.link = true) : linkDue s states due = due := if_pos ⟨hw, hl⟩

/-! ### The listen time and isolation (R17, R18, R20) -/

theorem exec_listenTime {s : State} {d : Nat} (hp : s.power = .released) (hw : s.warned = false)
    (hl : s.lc.link = .listen) (hd : s.lc.listenAt = some d) :
    exec .listenTime s = .next (announce (s.reach d)) :=
  live_atDue (due := fun s => linkDue s (· == .listen) s.lc.listenAt) hp
    ((linkDue_of_link hw (by simp [hl])).trans hd)

theorem exec_isolationTime {s : State} (hp : s.power = .released) (hw : s.warned = false)
    (hl : s.lc.link = .joined) : exec .isolationTime s = .next { s with
      now := max s.now (max (s.lc.lastHeard.getD 0) s.lc.joinedAt + sec 120),
      lc := { s.lc with link := .isolated } } :=
  live_atDue (due := fun s => linkDue s (· == .joined) (some (max (s.lc.lastHeard.getD 0) s.lc.joinedAt + sec 120)))
    hp (linkDue_of_link hw (by simp [hl]))

/-- Settles O28: with nothing waiting the HELLO comes to the head, and its countdown begins. -/
theorem listenAndIsolationTimes : Obligations.ListenAndIsolationTimes := by
  intro s hp hw
  refine ⟨fun d hl hd hq htx hcd hg hheld => ?_, exec_isolationTime hp hw⟩
  refine ⟨{ left := backoffCount 1 (Config.backoffDraw s.draws), counting := false, slotFrom := max s.now d },
    (backoffCount_range _).1, rfl, ?_⟩
  rw [exec_listenTime hp hw hl hd, announce]
  dsimp only
  rw [enqueueFrame_placed (by simp [lcTakes, helloFrame, State.reach, hw]) (by simp [State.reach, hq]),
    placeFrame_overtakes (by simp [State.reach, hq]),
    lcKick_starts (by rfl) (by rfl) (by exact htx) (by exact hg) (by exact .inl hheld)]
  simp only [State.reach, hq]
  rfl

/-! ### STATUS frames (R9, R22) -/

theorem exec_settleTime {s : State} {d : Nat} (hp : s.power = .released) (hw : s.warned = false)
    (hl : s.lc.link = .announce) (hd : s.lc.settleAt = some d) : exec .settleTime s = .next (join (s.reach d)) :=
  live_atDue (due := fun s => linkDue s (· == .announce) s.lc.settleAt) hp
    ((linkDue_of_link hw (by simp [hl])).trans hd)

theorem exec_statusPeriod {s : State} {d : Nat} (hp : s.power = .released) (hw : s.warned = false)
    (hl : s.lc.link = .joined ∨ s.lc.link = .isolated) (hd : s.lc.lastStatusAt = some d) :
    exec .statusPeriod s = .next (makeStatus (s.reach (d + statusPeriod s))) :=
  live_atDue (due := fun s => linkDue s (fun l => l == .joined || l == .isolated)
      (s.lc.lastStatusAt.map (fun t => t + statusPeriod s))) hp
    ((linkDue_of_link hw (by simpa using hl)).trans (by rw [hd]; rfl))

section Status
variable {bytes : List Byte} {s : State}

theorem lcTakes_of_joined {owner : FrameOwner} (hw : s.warned = false)
    (hl : s.lc.link = .joined ∨ s.lc.link = .isolated) : lcTakes s owner = true := by
  unfold lcTakes
  rw [hw]
  rcases hl with hl | hl <;> rw [hl] <;> rfl

/-- With no STATUS waiting, one made is asked for like any other frame. -/
theorem enqueueStatus_none (ht : lcTakes s .status = true) (hn : ∀ f ∈ s.lc.queue, f.owner ≠ .status) :
    enqueueStatus bytes s = (enqueueFrame { cls := 3, owner := .status, bytes := bytes } s).2 := by
  unfold enqueueStatus
  rw [if_neg (by simp [ht]), if_neg (by simpa using hn)]

/-- A STATUS waiting gives its place to the one made. -/
theorem enqueueStatus_waiting (ht : lcTakes s .status = true) (hw : ∃ f ∈ s.lc.queue, f.owner = .status) :
    enqueueStatus bytes s = { s with lc := { s.lc with
      queue := s.lc.queue.map (fun f => if f.owner = .status then { f with bytes := bytes } else f) } } := by
  unfold enqueueStatus
  rw [if_neg (by simp [ht]), if_pos (by simpa using hw)]

end Status

/-- Settles O29: the two times, and the places of a STATUS made. -/
theorem statusFramesAreMade : Obligations.StatusFramesAreMade := by
  refine ⟨fun s d hp hw => ⟨exec_settleTime hp hw, exec_statusPeriod hp hw⟩,
    fun s u claim bytes hw hl hc hu hb => ?_⟩
  have made : makeStatus s = enqueueStatus bytes u := by subst hc hu hb; rfl
  have takes : lcTakes u .status = true := by subst hu; exact lcTakes_of_joined hw hl
  have queue : u.lc.queue = s.lc.queue := by subst hu; rfl
  rw [made, ← queue]
  refine ⟨fun hn hlen => ?_, fun hn hlen => ?_, enqueueStatus_waiting takes⟩
  · rw [enqueueStatus_none takes hn, enqueueFrame_placed (by exact takes) hlen]
  · rw [enqueueStatus_none takes hn, enqueueFrame_full (by exact takes) hlen (.inl rfl)]

/-! ### The reassembly and the claims list (R16, R190) -/

theorem exec_reassemblyTimeLimit {s : State} {r : Reassembly} (hp : s.power = .released)
    (hr : s.lc.reassembly = some r) :
    exec .reassemblyTimeLimit s = .next (abandonReassembly (s.reach (r.lastAt + sec 2))) :=
  live_atDue (due := fun s => s.lc.reassembly.map (fun x : Reassembly => x.lastAt + sec 2)) hp (by rw [hr]; rfl)

theorem exec_claimsListEntryExpiry {s : State} {c : Claim} {station : Nat} (hp : s.power = .released)
    (hc : s.lc.claims.find? (fun c => c.station == station) = some c) :
    exec (.claimsListEntryExpiry station) s = .next { s with
      now := max s.now (c.heardAt + sec 30),
      lc := { s.lc with claims := s.lc.claims.filter (fun c => c.station != station) } } :=
  live_atDue (due := fun s => claimDue s station) hp (by unfold claimDue; rw [hc]; rfl)

/-- Settles O30. -/
theorem reassemblyAndClaimsExpire : Obligations.ReassemblyAndClaimsExpire := by
  refine fun s hp => ⟨fun r hr hl => ?_, fun r l hr hl => ⟨_, exec_reassemblyTimeLimit hp hr, ?_⟩,
    fun c station => exec_claimsListEntryExpiry hp⟩
  · rw [exec_reassemblyTimeLimit hp hr, abandonReassembly_of_no_load (by exact hl)]
    rfl
  · rw [abandonReassembly_of_load (by exact hl)]
    exact ⟨askBanks_lc _, askBanks_pbu_banks _, askBanks_pbu_load _, askBanks_pbu_badBook _⟩

/-! ### The site clock (R24 to R26) -/

theorem exec_siteClockCount_of_hold {s : State} {d : Nat} (hp : s.power = .released) (hh : s.lc.hold = some d) :
    exec .siteClockCount s = .next s := by
  rw [exec_siteClockCount hp, hh]
  rfl

theorem exec_clockHoldEnd {s : State} {d : Nat} (hp : s.power = .released) (hh : s.lc.hold = some d) :
    exec .clockHoldEnd s = .next (holdEnds d (s.reach d)) := by
  have e : exec .clockHoldEnd s = .next (match s.lc.hold with | some due => holdEnds due (s.reach due) | none => s) :=
    if_pos hp
  rw [e, hh]

theorem exec_clockStoringPeriod {s : State} (hp : s.power = .released) : exec .clockStoringPeriod s
    = .next (scAsk .lc { s with
      now := max s.now s.lc.nextStoring, lc := { s.lc with nextStoring := s.lc.nextStoring + sec 60 } }) := if_pos hp

/-- Settles O31: with no bank PENDING the switch test changes nothing. -/
theorem siteClockRuns : Obligations.SiteClockRuns := by
  refine fun s hp h1 h2 => ⟨fun hh => ?_, fun d hh => ⟨exec_siteClockCount_of_hold hp hh, ?_⟩,
    exec_clockStoringPeriod hp⟩
  · rw [exec_siteClockCount_of_no_hold hp hh, switchTest_of_no_pending (by exact h1) (by exact h2)]
  · rw [exec_clockHoldEnd hp hh, holdEnds, switchTest_of_no_pending (by exact h1) (by exact h2)]
    rfl

end Sys2Proof.Machine

/-! The reader heads and the panel line (sections 2.3, 2.4 and 11.6). -/

namespace Sys2Proof.Machine

/-! ### The reader heads (R29 to R35) -/

section Head
variable {s : State} {h : Hose} {ok : Bool} {num : Byte} {result : HeadResult}

theorem exec_headAnswer_notAccepted (hp : s.power = .released)
    (ha : answerAccepted (s.tiu.get h) ok num.toNat s.now = false) :
    exec (.headAnswer h ok num result) s
      = .next (s.updTiu h (fun t => { t with headErrors := satInc max16 t.headErrors })) :=
  (if_pos hp : exec (.headAnswer h ok num result) s = _).trans (congrArg Host.Outcome.next (if_neg (by simp [ha])))

theorem exec_headAnswer_accepted (hp : s.power = .released)
    (ha : answerAccepted (s.tiu.get h) ok num.toNat s.now = true) :
    exec (.headAnswer h ok num result) s = .next (takeAnswer h result s) :=
  (if_pos hp : exec (.headAnswer h ok num result) s = _).trans (congrArg Host.Outcome.next (if_pos ha))

theorem takeAnswer_done_read0 {bytes : List Byte} {fixed : FixedPart} (hb : (s.tiu.get h).busy = .read0)
    (hf : fixedPartOf bytes = some fixed) :
    takeAnswer h (.done bytes) s = continueTag h (.read1 fixed) (.readFragment 1) false s := by
  simp only [takeAnswer, answeredDone, hb, fragmentZero, hf]

theorem takeAnswer_done_probing {bytes : List Byte} (hb : (s.tiu.get h).busy = .probing)
    (hr : (s.tiu.get h).requester = some .hc) :
    takeAnswer h (.done bytes) s = probeReport h (s.updTiu h (fun x => x.finish .probeDone)) := by
  simp [takeAnswer, answeredDone, hb, finishTag, hr]

/-- The report of a PROBE that nothing waits for. -/
theorem probeReport_of_none (hs : (s.hc.get h).state ≠ .flowing) (ht : (s.hc.get h).tagStep = .none) :
    probeReport h s = s := by
  unfold probeReport
  dsimp only
  rw [if_neg hs, if_neg (by rw [ht]; exact TagStep.noConfusion)]

/-- The end of AU's READ with another code than READ_DONE. -/
theorem finishTag_read {code : Completion} {serial : Nat} (hr : (s.tiu.get h).requester = some (.au serial))
    (hc : code ≠ .readDone) : finishTag h code s = s.updTiu h (fun x => x.finish code) := by
  unfold finishTag
  dsimp only
  rw [hr]
  exact if_neg fun ⟨_, _, e⟩ => hc e

theorem exec_headCommandTimeout {c : HeadCommand} (hp : s.power = .released)
    (hc : (s.tiu.get h).waiting = some c) : exec (.headCommandTimeout h) s
      = .next (finishTag h (.tagError .timeout) (s.reach (c.sentAt + ms 500))) :=
  live_atDue (due := fun s => (s.tiu.get h).waiting.map (fun c : HeadCommand => c.sentAt + ms 500)) hp
    (by rw [hc]; rfl)

end Head

/-- Settles O32: an answer not accepted, DONE to two of the commands, and the time without one. -/
theorem headAnswersDriveTheTransaction : Obligations.HeadAnswersDriveTheTransaction := by
  refine fun s h ok num result hp => ⟨exec_headAnswer_notAccepted hp, fun bytes fixed ha hb hr hf => ?_,
    fun bytes ha hb hq hr hs ht => ?_, fun c serial hc hq hb => ?_⟩
  · rw [exec_headAnswer_accepted hp ha, hr, takeAnswer_done_read0 hb hf]
    rfl
  · rw [exec_headAnswer_accepted hp ha, hr, takeAnswer_done_probing hb hq, probeReport_of_none (by exact hs) (by exact ht)]
    simp [State.updTiu, Tiu.finish, presenceAfter, missesAfter]
  · rw [exec_headCommandTimeout hp hc, finishTag_read (by exact hq) (by simp)]
    simp [State.updTiu, Tiu.finish, presenceAfter, missesAfter, State.reach, hb]

/-! ### Messages taken once (R207) -/

section Message
variable {s : State} {num : Byte} {m : PanelIn} {i : Instr}

theorem panelMessage_again (h : s.pp.lastTaken = some num) : panelMessage num m s = answered num s := if_pos h

theorem panelMessage_taken (h : Takes s num) : panelMessage num m s = panelDeal m (taken num s) := by
  obtain ⟨-, present, fresh⟩ := h
  unfold panelMessage
  dsimp only
  rw [if_neg (by exact fresh), becomePresent, if_pos (by exact present)]
  rfl

/-- The panel's commands whose number is not new. -/
theorem exec_message_again (hi : exec i s = live s (panelMessage num m)) (hp : s.power = .released)
    (hl : s.pp.lastTaken = some num) : exec i s = .next (answered num s) := by
  rw [hi, live_released _ hp, panelMessage_again hl]

/-- The panel's commands that are taken. -/
theorem exec_message_taken (m : PanelIn) (hi : exec i s = live s (panelMessage num m)) (h : Takes s num) :
    exec i s = .next (panelDeal m (taken num s)) := by
  rw [hi, live_released _ h.released, panelMessage_taken h]

end Message

theorem withAuthority_held {s : State} {f : Nat → State → State} (h : s.pp.authority = true) :
    withAuthority s f = f (s.pp.key.getD 0) s := if_pos h

theorem withAuthority_missing {s : State} {f : Nat → State → State} (h : s.pp.authority = false) :
    withAuthority s f = prompt .supervisorKeyRequired s := if_neg (by simp [h])

/-- Settles O33: by the twelve messages, and the four that need authority. -/
theorem panelMessagesNotActedOn : Obligations.PanelMessagesNotActedOn := by
  intro s num h d id page
  refine ⟨fun hp hl i hi => ?_, fun ht ha i hi => ?_⟩
  · simp only [List.mem_cons, List.not_mem_nil, or_false] at hi
    rcases hi with rfl | rfl | rfl | rfl | rfl | rfl | rfl | rfl | rfl | rfl | rfl | rfl <;>
      exact exec_message_again rfl hp hl
  · simp only [List.mem_cons, List.not_mem_nil, or_false] at hi
    have missing (f : Nat → State → State) :
        withAuthority (taken num s) f = prompt .supervisorKeyRequired (taken num s) :=
      withAuthority_missing (by exact ha)
    rcases hi with rfl | rfl | rfl | rfl
    · exact (exec_message_taken .prove rfl ht).trans (congrArg Host.Outcome.next (missing proveKey))
    · exact (exec_message_taken .ack rfl ht).trans (congrArg Host.Outcome.next (missing (fun _ => ackKey)))
    · exact (exec_message_taken .adopt rfl ht).trans (congrArg Host.Outcome.next (missing adoptKey))
    · exact (exec_message_taken .inspect rfl ht).trans (congrArg Host.Outcome.next (missing (fun _ => inspectKey)))

/-! ### The preset entry (R80 to R82) -/

section Entry
variable {s : State}

theorem enterKey_empty (h : s.au.digits = []) : enterKey s = s := if_pos (by simp [h])

theorem enterKey_small (h : s.au.digits ≠ []) (hs : (s.hc.get s.pp.selected).state ≠ .proving)
    (hv : entryValue s.au.digits < 200) : enterKey s = prompt .presetTooSmall (emptyEntry s) := by
  unfold enterKey
  dsimp only
  rw [if_neg (by simpa using h), if_neg hs, if_pos hv]

theorem enterKey_preset (h : s.au.digits ≠ []) (hs : (s.hc.get s.pp.selected).state ≠ .proving)
    (hv : 200 ≤ entryValue s.au.digits) :
    enterKey s = presetValue s.pp.selected (entryValue s.au.digits) (emptyEntry s) := by
  unfold enterKey
  dsimp only
  rw [if_neg (by simpa using h), if_neg hs, if_neg (by omega)]

theorem clearKey_entry (h : s.au.digits ≠ []) : clearKey s = emptyEntry s := if_pos (by simpa using h)

theorem clearKey_pending (h : s.au.digits = []) (hs : (s.hc.get s.pp.selected).state = .idle ∨
      (s.hc.get s.pp.selected).state = .identifying ∨ (s.hc.get s.pp.selected).state = .awaitKey ∨
      (s.hc.get s.pp.selected).state = .querying) :
    clearKey s = { s with au := { s.au with preset := s.au.preset.set s.pp.selected none } } := by
  unfold clearKey
  dsimp only
  rw [if_neg (by simp [h])]
  rcases hs with hs | hs | hs | hs <;> rw [hs]

theorem clearKey_nothing (h : s.au.digits = []) (hs : (s.hc.get s.pp.selected).state = .authorised ∨
      (s.hc.get s.pp.selected).state = .flowing ∨ (s.hc.get s.pp.selected).state = .stopping ∨
      (s.hc.get s.pp.selected).state = .writing ∨ (s.hc.get s.pp.selected).state = .hangWait) :
    clearKey s = s := by
  unfold clearKey
  dsimp only
  rw [if_neg (by simp [h])]
  rcases hs with hs | hs | hs | hs | hs <;> rw [hs]

variable {h : Hose} {v : Nat}

theorem presetValue_pending (hs : (s.hc.get h).state = .idle ∨ (s.hc.get h).state = .identifying ∨
      (s.hc.get h).state = .awaitKey ∨ (s.hc.get h).state = .querying) :
    presetValue h v s = { s with au := { s.au with preset := s.au.preset.set h (some v) } } := by
  unfold presetValue
  rcases hs with hs | hs | hs | hs <;> rw [hs]

theorem presetValue_notTaken (hs : (s.hc.get h).state = .flowing ∨ (s.hc.get h).state = .stopping ∨
      (s.hc.get h).state = .writing ∨ (s.hc.get h).state = .hangWait) :
    presetValue h v s = prompt .presetNotTaken s := by
  unfold presetValue
  rcases hs with hs | hs | hs | hs <;> rw [hs]

theorem presetValue_authorised {t : Terms} (hs : (s.hc.get h).state = .authorised)
    (ht : (s.au.session.get h).terms = some t) :
    presetValue h v s = newLimit h (chooseLimit (some v) t).2 (chooseLimit (some v) t).1
      (updOpenDispense h (fun d => { d with
          limit := (chooseLimit (some v) t).2, binding := (chooseLimit (some v) t).1 })
        (s.updSession h (fun se => { se with presetTerm := some v }))) := by
  unfold presetValue
  rw [hs]
  dsimp only
  unfold presetAfterGrant
  rw [ht]

/-- A new limit outside a prove: a stage FULL becomes SLOW within the slow-down volume of it. -/
theorem newLimit_eq {limit : Nat} {binding : Binding} (hs : (s.hc.get h).state ≠ .proving) :
    newLimit h limit binding s = { s with hc := s.hc.set h { s.hc.get h with
      limit := some limit, binding := some binding,
      stage := if (s.hc.get h).stage = Stage.full ∧ limit * 10000
          ≤ stdTotal s h + (s.cfg.params.hose.get h).slowDown * 10000 then .slow else (s.hc.get h).stage } } := by
  have total : compareTotal (s.updHc h fun hc => { hc with limit := some limit, binding := some binding }) h
      = stdTotal s h := by
    unfold compareTotal
    rw [if_neg (by simpa [State.updHc] using hs)]
    rfl
  unfold newLimit stageCompare slowNow
  dsimp only
  rw [total]
  by_cases slow : (s.hc.get h).stage = Stage.full ∧
      limit * 10000 ≤ stdTotal s h + (s.cfg.params.hose.get h).slowDown * 10000
  · simp [State.updHc, slowDownOf, slow]
  · simp only [State.updHc, slowDownOf, Two.get_set_self, Two.set_set, Option.getD_some, decide_eq_true_eq]
    rw [if_neg slow, if_neg slow]

theorem updOpenDispense_reserved {d : DispenseRec} {f : DispenseRec → DispenseRec}
    (hr : s.ju.slots.get h = some (.reserved d)) : updOpenDispense h f s
      = { s with ju := { s.ju with slots := s.ju.slots.set h (some (.reserved (f d))) } } := by
  unfold updOpenDispense
  rw [hr]

theorem updOpenDispense_numbered {n : Nat} {f : DispenseRec → DispenseRec}
    (hr : s.ju.slots.get h = some (.numbered n)) : updOpenDispense h f s
      = { s with ju := s.ju.upd n (fun r => r.updDispense f) } := by
  unfold updOpenDispense
  rw [hr]

/-- What a preset in AUTHORISED changes outside the journal. -/
def presetGranted (h : Hose) (v : Nat) (best : Binding × Nat) (s : State) : State := { s with
  au := { s.au with session := s.au.session.set h { s.au.session.get h with presetTerm := some v } },
  hc := s.hc.set h { s.hc.get h with
    limit := some best.2, binding := some best.1,
    stage := if (s.hc.get h).stage = Stage.full ∧ best.2 * 10000
        ≤ stdTotal s h + (s.cfg.params.hose.get h).slowDown * 10000 then .slow else (s.hc.get h).stage } }

/-- A preset in AUTHORISED, with the open record still a reservation. -/
theorem presetValue_reserved {t : Terms} {best : Binding × Nat} {d : DispenseRec}
    (hs : (s.hc.get h).state = .authorised) (ht : (s.au.session.get h).terms = some t)
    (hb : best = chooseLimit (some v) t) (hr : s.ju.slots.get h = some (.reserved d)) :
    presetValue h v s = { presetGranted h v best s with ju := { s.ju with
      slots := s.ju.slots.set h (some (.reserved { d with limit := best.2, binding := best.1 })) } } := by
  rw [presetValue_authorised hs ht, ← hb, updOpenDispense_reserved (by exact hr),
    newLimit_eq (by exact fun e => HoseState.noConfusion (hs.symm.trans e))]
  rfl

/-- The same with the open record numbered. -/
theorem presetValue_numbered {t : Terms} {best : Binding × Nat} {n : Nat}
    (hs : (s.hc.get h).state = .authorised) (ht : (s.au.session.get h).terms = some t)
    (hb : best = chooseLimit (some v) t) (hr : s.ju.slots.get h = some (.numbered n)) :
    presetValue h v s = { presetGranted h v best s with
      ju := s.ju.upd n (fun r => r.updDispense (fun d => { d with limit := best.2, binding := best.1 })) } := by
  rw [presetValue_authorised hs ht, ← hb, updOpenDispense_numbered (by exact hr),
    newLimit_eq (by exact fun e => HoseState.noConfusion (hs.symm.trans e))]
  rfl

end Entry

/-- A hose key outside SELECT. -/
theorem selectKey_of_not_select {h : Hose} {s : State} (hs : s.prove.phase ≠ .select) : selectKey h s =
    { s with
      pp := { s.pp with selected := h }, au := { s.au with digits := [] },
      inspect := { s.inspect with closeAt := none } } := if_pos hs

/-- Settles O34: DIGIT, HOSE, ENTER and CLEAR, by the entry and the state of the selected hose. -/
theorem entryKeys : Obligations.EntryKeys := by
  intro s num h d ht
  have digit : exec (.digit num d) s = .next (digitKey d (taken num s)) := exec_message_taken (.digit d) rfl ht
  have enter : exec (.enter num) s = .next (enterKey (taken num s)) := exec_message_taken .enter rfl ht
  have clear : exec (.clear num) s = .next (clearKey (taken num s)) := exec_message_taken .clear rfl ht
  refine ⟨fun hl => ?_, fun hl => ?_, fun hs => ?_, fun hs hd hv => ?_, fun hd => ?_, fun hd hs => ?_, fun hd => ?_,
    fun state hstate => ⟨fun hd hv hs => ?_, fun hd hv hs => ?_, fun hd hv hs => ?_, fun hd hs => ?_, fun hd hs => ?_,
      fun t best hd hv hs hterms hbest => ?_⟩⟩
  · exact digit.trans (congrArg Host.Outcome.next (if_pos hl))
  · exact digit.trans (congrArg Host.Outcome.next (if_neg (by exact Nat.not_lt.2 hl)))
  · exact (exec_message_taken (.hoseKey h) rfl ht).trans (congrArg Host.Outcome.next (selectKey_of_not_select (by exact hs)))
  · rw [enter, enterKey_preset (by exact hd) (by simp [taken, answered, hs]) (by exact hv),
      presetValue_pending (.inl (by exact hs))]
    rfl
  · exact clear.trans (congrArg Host.Outcome.next (clearKey_entry hd))
  · exact clear.trans (congrArg Host.Outcome.next (clearKey_pending hd (.inl hs)))
  · exact enter.trans (congrArg Host.Outcome.next (enterKey_empty hd))
  · rw [enter, enterKey_small (by exact hd) (by exact hstate ▸ hs) (by exact hv)]
    rfl
  · rw [hstate] at hs
    rw [enter, enterKey_preset (by exact hd) (by rcases hs with e | e | e <;> simp [taken, answered, e])
      (by exact hv), presetValue_pending (.inr (by exact hs))]
    rfl
  · rw [hstate] at hs
    rw [enter, enterKey_preset (by exact hd) (by rcases hs with e | e | e | e <;> simp [taken, answered, e])
      (by exact hv), presetValue_notTaken (by exact hs)]
    rfl
  · rw [hstate] at hs
    exact clear.trans (congrArg Host.Outcome.next (clearKey_pending hd (.inr hs)))
  · rw [hstate] at hs
    exact clear.trans (congrArg Host.Outcome.next (clearKey_nothing hd hs))
  · rw [hstate] at hs
    refine ⟨fun r hr => ?_, fun n hn => ?_⟩
    · rw [enter, enterKey_preset (by exact hd) (by simp [taken, answered, hs]) (by exact hv),
        presetValue_reserved (by exact hs) (by exact hterms) (by exact hbest) (by exact hr)]
      rfl
    · rw [enter, enterKey_preset (by exact hd) (by simp [taken, answered, hs]) (by exact hv),
        presetValue_numbered (by exact hs) (by exact hterms) (by exact hbest) (by exact hn)]
      rfl

/-! ### The supervisor's keys (R129, R138, R185, R186) -/

section Supervisor
variable {s : State}

theorem proveKey_selects {supervisor : Nat} (hw : s.warned = false) (hp : s.prove.phase = .none)
    (hf : s.sc.fault = false) : proveKey supervisor s = { s with prove := { s.prove with
      phase := .select, supervisor := supervisor, timerAt := some (s.now + sec 10) } } := by
  unfold proveKey
  rw [if_neg (by simp [hw]), if_neg (by simp [hp]), if_neg (by simp [hf])]

theorem ackKey_loss (hw : s.warned = false) (hl : s.su.loss = true) :
    ackKey s = askStock { s with su := { s.su with loss := false, lowCount := 0 } } := by
  unfold ackKey
  rw [if_neg (by simp [hw]), if_pos hl]

theorem ackKey_nothing (hw : s.warned = false) (hl : s.su.loss = false) :
    ackKey s = prompt .nothingToAcknowledge s := by
  unfold ackKey
  rw [if_neg (by simp [hw]), if_neg (by simp [hl])]

theorem adoptKey_settled {supervisor : Nat} (hw : s.warned = false) (hs : settled s = true) :
    adoptKey supervisor s
      = requestOrWait (.adjust ((s.su.standard.getD 0 : Nat) - bookCl s.su.book) supervisor) s := by
  unfold adoptKey
  rw [if_neg (by simp [hw]), if_pos hs]

theorem inspectSub_keyed (h : s.au.digits ≠ []) : inspectSub s = entryValue s.au.digits :=
  if_pos (by simpa using h)

theorem inspectSub_open (h : s.au.digits = []) (hc : s.inspect.closeAt.isSome = true) :
    inspectSub s = (s.inspect.sub + 1) % 256 := by
  unfold inspectSub
  rw [if_neg (by simp [h]), if_pos hc]

theorem inspectSub_closed (h : s.au.digits = []) (hc : s.inspect.closeAt = none) : inspectSub s = 0 := by
  unfold inspectSub
  rw [if_neg (by simp [h]), if_neg (by simp [hc])]

theorem emptyEntry_of_empty (h : s.au.digits = []) : emptyEntry s = s := by
  obtain ⟨⟩ := s
  dsimp only at h
  unfold emptyEntry
  rw [← h]

end Supervisor

/-- Settles O35: the four keys, each by its own conditions. -/
theorem supervisorKeysAct : Obligations.SupervisorKeysAct := by
  intro s num ht ha hw
  have held (f : Nat → State → State) : withAuthority (taken num s) f = f (s.pp.key.getD 0) (taken num s) :=
    withAuthority_held (by exact ha)
  have inspect : exec (.inspect num) s = .next (inspectKey (taken num s)) :=
    (exec_message_taken .inspect rfl ht).trans (congrArg Host.Outcome.next (held (fun _ => inspectKey)))
  have ack : exec (.ack num) s = .next (ackKey (taken num s)) :=
    (exec_message_taken .ack rfl ht).trans (congrArg Host.Outcome.next (held (fun _ => ackKey)))
  have adopt : exec (.adopt num) s = .next (adoptKey (s.pp.key.getD 0) (taken num s)) :=
    (exec_message_taken .adopt rfl ht).trans (congrArg Host.Outcome.next (held adoptKey))
  refine ⟨fun hph hf => ?_, fun hl => ?_, fun hl => ?_, fun hd hc => ?_, fun hd hc => ?_, fun n hd hn => ?_,
    fun hs hf => ⟨_, adopt, ?_⟩⟩
  · exact (exec_message_taken .prove rfl ht).trans (congrArg Host.Outcome.next
      ((held proveKey).trans (proveKey_selects (by exact hw) (by exact hph) (by exact hf))))
  · exact ack.trans (congrArg Host.Outcome.next (ackKey_loss (by exact hw) (by exact hl)))
  · exact ack.trans (congrArg Host.Outcome.next (ackKey_nothing (by exact hw) (by exact hl)))
  · rw [inspect, inspectKey, inspectSub_closed (by exact hd) (by exact hc), emptyEntry_of_empty (by exact hd)]
    rfl
  · rw [inspect, inspectKey, inspectSub_open (by exact hd) (by exact hc), emptyEntry_of_empty (by exact hd)]
    dsimp only
    rw [Nat.min_eq_left (by omega)]
    rfl
  · rw [inspect, inspectKey, inspectSub_keyed (by exact hd)]
    dsimp only
    rw [← inspectValue_min, Nat.min_comm _ 255, hn]
    rfl
  · rw [adoptKey_settled (by exact hw) (by exact hs), requestOrWait_taken (by exact hw) (by exact hf)]
    simp [requesterTaken, adjustTaken, reevaluateClaim, WaitReq.body, taken, answered]

/-! ### The key reader and the panel's presence (R37, R207, R209) -/

theorem keyPresent_read {id : Nat} {s : State} (h : id ≠ 0) : keyPresent id s
    = keyForHose s.pp.selected { s with pp := { s.pp with
      key := some id, authority := isSupervisor s.cfg.params id,
      pendingOp := s.pp.pendingOp.set s.pp.selected (some id) } } := if_neg h

theorem keyPresent_notRead {s : State} : keyPresent 0 s = prompt .keyNotRead s := if_pos rfl

theorem addPage_eq (page : Byte) (due : List Byte) :
    addPage page due = if page = 0 then due else due.filter (fun p => p != page) ++ [page] := rfl

theorem panelBytes_bad {message : List Byte} {s : State} (h : judgePanel message = .bad) :
    panelBytes message s = { s with pp := { s.pp with panelBad := satInc max16 s.pp.panelBad } } := by
  unfold panelBytes
  rw [h]

/-- Settles O36: the messages of the key reader and the panel, and its absence. -/
theorem keyReaderAndPanelPresence : Obligations.KeyReaderAndPanelPresence := by
  intro s num id page message
  have presented (ht : Takes s num) (i : BitVec 32) :
      exec (.keyPresented num i) s = .next (keyPresent i.toNat (taken num s)) :=
    exec_message_taken (.keyPresented i) rfl ht
  refine ⟨fun ht hid hs => ?_, fun ht hid hs => ?_, fun ht => ?_, fun ht => ?_, fun ht => ?_, fun hp hj => ?_,
    fun hp hpresent => ?_⟩
  · rw [presented ht, keyPresent_read fun e => hid (BitVec.toNat_eq_zero_iff.1 e)]
    exact congrArg Host.Outcome.next (if_neg hs)
  · rw [presented ht, keyPresent_read fun e => hid (BitVec.toNat_eq_zero_iff.1 e)]
    exact congrArg Host.Outcome.next (if_pos hs)
  · exact (presented ht 0).trans (congrArg Host.Outcome.next keyPresent_notRead)
  · exact exec_message_taken .keyRemoved rfl ht
  · exact exec_message_taken (.panelStatus page) rfl ht
  · exact (if_pos hp).trans (congrArg Host.Outcome.next (panelBytes_bad hj))
  · exact live_atDue (due := fun s => if s.pp.present then some (s.pp.lastGood + sec 3) else none) hp
      (if_pos hpresent)

end Sys2Proof.Machine

/-! The display records that PP sends (section 11.6). -/

namespace Sys2Proof.Machine

/-! ### What sending leaves alone -/

/-- Two states that differ in the Panel Port at most. -/
def ChangesPanel (s t : State) : Prop := { t with pp := s.pp } = s

namespace ChangesPanel

theorem refl (s : State) : ChangesPanel s s := rfl

theorem trans {s t u : State} (h1 : ChangesPanel s t) (h2 : ChangesPanel t u) : ChangesPanel s u := by
  unfold ChangesPanel at *
  have outside := congrArg (fun x : State => { x with pp := s.pp }) h2
  exact Eq.trans outside h1

theorem now {s t : State} (h : ChangesPanel s t) : t.now = s.now := by
  unfold ChangesPanel at h
  have outside := congrArg State.now h
  exact outside

theorem with_pp {s t : State} (h : ChangesPanel s t) (pp : Pp) : ChangesPanel s { t with pp := pp } := h

/-- After a due time the clock differs too. -/
theorem of_reach {s t : State} {d : Nat} (h : ChangesPanel (s.reach d) t) :
    { t with now := s.now, pp := s.pp } = s := by
  unfold ChangesPanel at h
  have outside := congrArg (fun x : State => { x with now := s.now, pp := s.pp }) h
  exact outside

end ChangesPanel

theorem clearSent_changesPanel (s : State) : ChangesPanel s (clearSent s) := rfl

theorem sendHose_changesPanel (h : Hose) (s : State) : ChangesPanel s (sendHose h s) := rfl

theorem sendSite_changesPanel (s : State) : ChangesPanel s (sendSite s) := rfl

theorem sendPages_changesPanel (pages : List Byte) (s : State) :
    ChangesPanel s (pages.foldl (fun u page => sendPage page u) s) := by
  have panel := congrArg (fun x : State => { x with pp := s.pp }) (sendPages_sends pages s).2.2
  exact panel

theorem sendPagesDue_changesPanel (s : State) : ChangesPanel s (sendPagesDue s) := by
  have sent := sendPages_changesPanel s.pp.pagesDue s
  exact sent

theorem sendPageShown_changesPanel (s : State) : ChangesPanel s (sendPageShown s) := by
  have asked : ChangesPanel s { s with pp := { s.pp with pagesDue := pagesToGo s.pp } } := rfl
  exact asked.trans (sendPagesDue_changesPanel _)

theorem sendInspect_changesPanel (s : State) : ChangesPanel s (sendInspect s) := by
  unfold sendInspect
  split <;> rfl

/-- Every display record, and the pages. -/
theorem sendAll_changesPanel (s : State) : ChangesPanel s (sendAll s) := by
  unfold sendAll
  exact ((((sendHose_changesPanel .a s).trans (sendHose_changesPanel .b _)).trans (sendSite_changesPanel _)).trans
    (sendPageShown_changesPanel _)).trans (sendInspect_changesPanel _)

/-! ### What each of them sends -/

/-- The pages leave the hose records sent and the refresh. -/
theorem sendPages_keeps (pages : List Byte) (s : State) :
    (pages.foldl (fun u page => sendPage page u) s).pp.hoseSent = s.pp.hoseSent ∧
    (pages.foldl (fun u page => sendPage page u) s).pp.refreshAt = s.pp.refreshAt := by
  induction pages generalizing s with
  | nil => exact ⟨rfl, rfl⟩
  | cons page rest ih => exact ih (sendPage page s)

/-- The inspect page leaves them too, with the pages asked for and the lines sent before it. -/
theorem sendInspect_keeps (s : State) :
    (sendInspect s).pp.hoseSent = s.pp.hoseSent ∧ (sendInspect s).pp.refreshAt = s.pp.refreshAt ∧
    (sendInspect s).pp.pagesDue = s.pp.pagesDue ∧ s.pp.sent <+: (sendInspect s).pp.sent := by
  unfold sendInspect
  split
  · exact ⟨rfl, rfl, rfl, List.prefix_append _ _⟩
  · exact ⟨rfl, rfl, rfl, List.prefix_refl _⟩

/-- With every page asked for and not sent goes the page shown. -/
theorem mem_pagesToGo {pp : Pp} {page p : Byte} (hs : pageShown pp = some page) (hp : p = page ∨ p ∈ pp.pagesDue) :
    p ∈ pagesToGo pp := by
  unfold pagesToGo
  rw [hs]
  dsimp only
  split
  · next h =>
    rcases hp with rfl | hp
    · simpa using h
    · exact hp
  · rcases hp with rfl | hp <;> simp [*]

theorem pagesToGo_of_none_due {pp : Pp} {page : Byte} (hs : pageShown pp = some page) (hd : pp.pagesDue = []) :
    pagesToGo pp = [page] := by
  unfold pagesToGo
  rw [hs]
  simp [hd]

theorem sendPageShown_sends {s : State} {p : Byte} (h : p ∈ pagesToGo s.pp) :
    ∃ n, panelLine n (.diagnosticPage p (diagnostics s)) ∈ (sendPageShown s).pp.sent :=
  (sendPages_sends (pagesToGo s.pp) { s with pp := { s.pp with pagesDue := pagesToGo s.pp } }).1 p h

theorem sendPageShown_sends_one {s : State} {page : Byte} (h : pagesToGo s.pp = [page]) :
    (sendPageShown s).pp.sent = s.pp.sent ++ [panelLine s.pp.outNumber (.diagnosticPage page (diagnostics s))] := by
  unfold sendPageShown
  rw [h]
  rfl

/-! ### The commands (R196, R210) -/

theorem mayGoAt_changed {α : Type} [DecidableEq α] {current x : α} {at' : Nat} (h : x ≠ current) :
    mayGoAt current (some { record := x, sentAt := at' }) = some (at' + ms 100) := if_neg h

section Display
variable {s : State}

theorem displaySend_siteLine_startUp (hp : s.power = .startUp) :
    displaySend .siteLine s = sendSite (clearSent s) := by
  unfold displaySend
  rw [hp]

theorem displaySend_hoseRecord {h : Hose} {r : HoseRecord} {at' : Nat} (hp : s.power = .released)
    (hs : s.pp.hoseSent.get h = some { record := r, sentAt := at' }) (hr : r ≠ hoseRecord s h) :
    displaySend (.hoseRecord h) s
      = sendInspect (sendPagesDue (sendHose h (clearSent (s.reach (at' + ms 100))))) := by
  unfold displaySend
  rw [hp]
  dsimp only
  rw [hs, mayGoAt_changed hr, atDue_some]

theorem displaySend_diagnosticPage {page : Byte} {x : Byte × Diagnostics} {at' : Nat} (hp : s.power = .released)
    (hs : pageShown s.pp = some page) (hx : s.pp.pageSent = some { record := x, sentAt := at' })
    (hr : x ≠ (page, diagnostics s)) :
    displaySend .diagnosticPage s = sendInspect (sendPageShown (clearSent (s.reach (at' + ms 100)))) := by
  unfold displaySend
  rw [hp]
  dsimp only
  rw [hs]
  dsimp only
  rw [hx, mayGoAt_changed hr, atDue_some]

theorem displaySend_refresh {u : State} (hp : s.power = .released)
    (hu : sendAll (clearSent (s.reach s.pp.refreshAt)) = u) : displaySend .refresh s =
      { u with pp := { u.pp with refreshAt := u.pp.refreshAt + sec 1 } } := by
  rw [← hu]
  unfold displaySend
  rw [hp]
  rfl

theorem sendPageShown_refreshAt (s : State) : (sendPageShown s).pp.refreshAt = s.pp.refreshAt := by
  have kept := (sendPages_keeps (pagesToGo s.pp) { s with pp := { s.pp with pagesDue := pagesToGo s.pp } }).2
  exact kept

theorem sendPagesDue_hoseSent (s : State) : (sendPagesDue s).pp.hoseSent = s.pp.hoseSent := by
  have kept := (sendPages_keeps s.pp.pagesDue s).1
  exact kept

theorem sendHose_refreshAt (h : Hose) (s : State) : (sendHose h s).pp.refreshAt = s.pp.refreshAt := rfl

theorem sendSite_refreshAt (s : State) : (sendSite s).pp.refreshAt = s.pp.refreshAt := rfl

/-- The refresh time stands while the records go. -/
theorem sendAll_refreshAt (s : State) : (sendAll s).pp.refreshAt = s.pp.refreshAt := by
  obtain ⟨-, inspect, -⟩ := sendInspect_keeps (sendPageShown (sendSite (sendHose .b (sendHose .a s))))
  exact inspect.trans ((sendPageShown_refreshAt _).trans ((sendSite_refreshAt _).trans
    ((sendHose_refreshAt .b _).trans (sendHose_refreshAt .a s))))

end Display

/-- Settles O37: each record by the operations that send it, of which each leaves the rest of the part alone. -/
theorem displayRecordsAreSent : Obligations.DisplayRecordsAreSent := by
  intro s
  refine ⟨fun hp => ⟨_, congrArg Host.Outcome.next (displaySend_siteLine_startUp hp), rfl, ?_, rfl, rfl, rfl⟩,
    fun h r at' hp hs hr => ⟨_, congrArg Host.Outcome.next (displaySend_hoseRecord hp hs hr), ?_⟩,
    fun page x at' hp hs hx hr => ⟨_, congrArg Host.Outcome.next (displaySend_diagnosticPage hp hs hx hr), ?_⟩,
    fun hp => ?_, fun p d hp hd => ?_, fun d hp hd => ?_⟩
  · exact decide_eq_true hp
  · have only := (((clearSent_changesPanel (s.reach (at' + ms 100))).trans (sendHose_changesPanel h _)).trans
      (sendPagesDue_changesPanel _)).trans (sendInspect_changesPanel _)
    refine ⟨only.now, ?_, only.of_reach⟩
    rw [only.now, (sendInspect_keeps _).1, sendPagesDue_hoseSent]
    exact Two.get_set_self _ _ _
  · have only := ((clearSent_changesPanel (s.reach (at' + ms 100))).trans (sendPageShown_changesPanel _)).trans
      (sendInspect_changesPanel _)
    obtain ⟨-, -, due, before⟩ := sendInspect_keeps (sendPageShown (clearSent (s.reach (at' + ms 100))))
    refine ⟨only.now, due, fun p hp => ?_, fun hd => ?_, only.of_reach⟩
    · obtain ⟨n, line⟩ := sendPageShown_sends (s := clearSent (s.reach (at' + ms 100))) (mem_pagesToGo hs hp)
      rw [only.now]
      exact ⟨n, before.subset line⟩
    · rw [sendPageShown_sends_one (pagesToGo_of_none_due (by exact hs) (by exact hd))] at before
      obtain ⟨after, same⟩ := before
      rw [only.now, ← same]
      rfl
  · have all := (clearSent_changesPanel (s.reach s.pp.refreshAt)).trans (sendAll_changesPanel _)
    have stands := sendAll_refreshAt (clearSent (s.reach s.pp.refreshAt))
    generalize hu : sendAll (clearSent (s.reach s.pp.refreshAt)) = u at all stands
    refine ⟨_, congrArg Host.Outcome.next (displaySend_refresh hp hu), all.now, ?_, ?_⟩
    · show u.pp.refreshAt + sec 1 = _
      rw [stands]
      rfl
    · exact (all.with_pp _).of_reach
  · exact live_atDue (due := fun s => s.pp.prompt.map Prod.snd) hp (by rw [hd]; rfl)
  · exact live_atDue (due := fun s => s.inspect.closeAt) hp hd

end Sys2Proof.Machine

/-! The meters: pulses, edges and window ends (chapter 5), and what the hose does on a metered pulse (chapter 6). -/

namespace Sys2Proof.Machine

/-! ### The standard increment (R99) -/

/-- Settles O39: with the compensation not below 0 its natural part is itself. -/
theorem standardIncrementOfAPulse : Obligations.StandardIncrementOfAPulse := by
  intro d wp alpha hc
  have sum : (stdSum (d.meter wp alpha).1 (c10 alpha d.theta) d.stdCarry : Int)
      = (d.meter wp alpha).1 * (10000000 - (alpha : Int) * (d.theta - 150)) + d.stdCarry := by
    unfold stdSum
    push_cast
    rw [Int.toNat_of_nonneg hc]
    rfl
  refine ⟨?_, ?_, rfl, rfl⟩
  · rw [← sum]
    rfl
  · rw [← sum]
    rfl

/-! ### The compares of a pulse (R111, R112) -/

section Compares
variable {s : State} {h : Hose}

theorem compareTotal_std {e : MuDispense} (hs : (s.hc.get h).state ≠ .proving)
    (he : (s.mu.get h).dispense = some e) : compareTotal s h = e.std := by
  unfold compareTotal stdTotal
  rw [if_neg hs, he]

theorem compareTotal_gross {e : MuDispense} (hs : (s.hc.get h).state = .proving)
    (he : (s.mu.get h).dispense = some e) : compareTotal s h = e.gross := by
  unfold compareTotal grossTotal
  rw [if_pos hs, he]

theorem stageCompare_eq {slow : Prop} [Decidable slow] {total : Nat} (ht : compareTotal s h = total)
    (hs : slow ↔ (s.hc.get h).stage = .full ∧ (s.hc.get h).limit.getD 0 * 10000
      ≤ total + (s.cfg.params.hose.get h).slowDown * 10000) :
    stageCompare h s = { s with hc := s.hc.set h { s.hc.get h with
      stage := if slow then .slow else (s.hc.get h).stage } } := by
  unfold stageCompare slowNow slowDownOf
  dsimp only
  rw [ht]
  by_cases c : slow
  · obtain ⟨full, near⟩ := hs.1 c
    simp [State.updHc, c, full, near]
  · have far := mt hs.2 c
    simp only [State.updHc, decide_eq_true_eq, if_neg far, if_neg c]

/-- The stage compare is made on the same figures as the limit compare and leaves them. -/
theorem limitReached_stageCompare : limitReached h (stageCompare h s) = limitReached h s := by
  have figures : ∀ x : Hc, x.limit = (s.hc.get h).limit → x.state = (s.hc.get h).state →
      limitReached h { s with hc := s.hc.set h x } = limitReached h s := by
    intro x hl hx
    have total : compareTotal { s with hc := s.hc.set h x } h = compareTotal s h := by
      unfold compareTotal
      dsimp only
      rw [Two.get_set_self, hx]
      rfl
    unfold limitReached
    rw [total]
    dsimp only
    rw [Two.get_set_self, hl]
  unfold stageCompare
  dsimp only
  refine figures _ ?_ ?_ <;>
  · dsimp only
    split <;> rfl

theorem pulseCompares_below (hb : compareTotal s h < (s.hc.get h).limit.getD 0 * 10000) :
    pulseCompares h s = stageCompare h s := by
  unfold pulseCompares
  dsimp only
  rw [limitReached_stageCompare, limitReached, if_neg (by simpa using hb)]

theorem pulseCompares_reached (hb : (s.hc.get h).limit.getD 0 * 10000 ≤ compareTotal s h) :
    pulseCompares h s = hoseEnd h .limit (stageCompare h s) := by
  unfold pulseCompares
  dsimp only
  rw [limitReached_stageCompare, limitReached, if_pos (by simpa using hb)]

/-- A pulse that does not reach the limit leaves the stage compare's outcome. -/
theorem pulseCompares_eq {slow : Prop} [Decidable slow] {total : Nat} (ht : compareTotal s h = total)
    (hs : slow ↔ (s.hc.get h).stage = .full ∧ (s.hc.get h).limit.getD 0 * 10000
      ≤ total + (s.cfg.params.hose.get h).slowDown * 10000)
    (hb : total < (s.hc.get h).limit.getD 0 * 10000) :
    pulseCompares h s = { s with hc := s.hc.set h { s.hc.get h with
      stage := if slow then .slow else (s.hc.get h).stage } } := by
  rw [pulseCompares_below (by rw [ht]; exact hb), stageCompare_eq ht hs]

end Compares

/-! ### The hose on a metered pulse (R109, R115, R117, R131) -/

section HosePulse
variable {s : State} {h : Hose} {std : Nat}

theorem hosePulse_flowing (hs : (s.hc.get h).state = .flowing) : hosePulse h std s
    = pulseCompares h (s.updHc h (fun x => { x with idleAt := some (s.now + sec 60) })) := by
  unfold hosePulse
  dsimp only
  rw [hs]

theorem hosePulse_stopping (hs : (s.hc.get h).state = .stopping) : hosePulse h std s
    = s.updHc h (fun x => { x with overrun := satAdd48 x.overrun std, drainAt := some (s.now + sec 3) }) := by
  unfold hosePulse
  dsimp only
  rw [hs]

theorem hosePulse_authorised_joined (hs : (s.hc.get h).state = .authorised) (hj : (s.hc.get h).joined = true) :
    hosePulse h std s = pulseCompares h (firstPulse h s) := by
  unfold hosePulse
  dsimp only
  rw [hs]
  exact if_pos hj

/-- Before its hose has joined the pump, a pulse that does not reach the limit leaves the hose. -/
theorem hosePulse_authorised_waiting (hs : (s.hc.get h).state = .authorised) (hj : (s.hc.get h).joined = false)
    (hb : compareTotal s h < (s.hc.get h).limit.getD 0 * 10000) : hosePulse h std s = s := by
  unfold hosePulse
  dsimp only
  rw [hs]
  dsimp only
  rw [if_neg (by simp [hj]), limitReached, if_neg (by simpa using hb)]

theorem hosePulse_prove_run (hs : (s.hc.get h).state = .proving) (hp : s.prove.phase = .run)
    (he : (s.hc.get h).endCause = none) : hosePulse h std s = pulseCompares h (s.updHc h (fun x =>
      { x with idleAt := if x.joined then some (s.now + sec 60) else none })) := by
  have flows : proveFlows h s = true := by simp [proveFlows, hs, hp, he]
  unfold hosePulse
  dsimp only
  rw [hs]
  exact if_pos flows

theorem hosePulse_prove_drain (hs : (s.hc.get h).state = .proving) (he : (s.hc.get h).endCause.isSome = true) :
    hosePulse h std s = s.updHc h (fun x => { x with drainAt := some (s.now + sec 3) }) := by
  have ended : proveFlows h s = false := by
    unfold proveFlows
    rw [Option.isSome_iff_ne_none] at he
    simp [he]
  unfold hosePulse
  dsimp only
  rw [hs]
  exact if_neg (by simp [ended])

/-- The first pulse at an idle TIU before the warning: FLOWING, its timers, a PROBE, and no session. -/
theorem firstPulse_eq (hw : s.warned = false) (hb : (s.tiu.get h).busy = .idle) : firstPulse h s = { s with
    hc := s.hc.set h { s.hc.get h with
      state := .flowing, noFlowAt := none, idleAt := some (s.now + sec 60), probeAt := some (s.now + sec 1) },
    au := { s.au with session := s.au.session.set h (Session.empty (s.au.session.get h).serial) },
    tiu := s.tiu.set h ((s.tiu.get h).start .hc .probe s.now) } := by
  unfold firstPulse probe tagRequest
  rw [if_neg (by simp [sessionNone, State.updSession, State.updHc, hw, hb])]
  rfl

end HosePulse

/-! ### The book and the hour (R179, R187) -/

theorem suIncrement_eq {s : State} {hour std : Nat} {hours : List Nat} (hh : s.su.hours = hour :: hours) :
    suIncrement std s = { s with su := { s.su with
      book := bookAdd s.su.book (-(std : Int)), hours := (hour + std) :: hours,
      again := s.su.again || decide (s.sc.current.map Prod.fst = some .su) } } := by
  unfold suIncrement
  rw [hh]
  rfl

/-! ### The record (R146, R147) -/

/-- A request of one requester starts no other requester's write, unless that one waits and nothing is under way. -/
theorem scAsk_under_iff {r x : Requester} {s : State} (hx : r ≠ x)
    (hs : s.sc.current.isSome = true ∨ s.sc.queue.contains x = false) :
    (scAsk r s).sc.current.map Prod.fst = some x ↔ s.sc.current.map Prod.fst = some x := by
  unfold scAsk
  split
  · rfl
  · unfold scKick
    dsimp only
    split
    · next y rest hc hq =>
      have front : y ∈ s.sc.queue ++ [r] := by rw [hq]; exact List.mem_cons_self
      have waits : s.sc.queue.contains x = false := hs.resolve_left (by rw [hc]; simp)
      have other : y ≠ x := by
        rintro rfl
        rcases List.mem_append.1 front with hy | hy
        · simp [List.elem_eq_mem, hy] at waits
        · exact hx (List.mem_singleton.1 hy).symm
      rw [hc]
      simp [other]
    · rfl

/-- So does JU's request. -/
theorem askJournal_under_iff {x : Requester} {s : State} (hx : .ju ≠ x)
    (hs : s.sc.current.isSome = true ∨ s.sc.queue.contains x = false) :
    (askJournal s).sc.current.map Prod.fst = some x ↔ s.sc.current.map Prod.fst = some x := by
  unfold askJournal
  split
  · rfl
  · exact scAsk_under_iff hx hs

section Record
variable {s : State} {h : Hose} {g st : Nat}

theorem recordIncrement_numbered {n : Nat} (hn : s.ju.slots.get h = some (.numbered n)) :
    recordIncrement h g st s = { s with ju := s.ju.upd n (fun r => r.updDispense (fun x => x.add g st)) } := by
  unfold recordIncrement
  rw [hn]

/-- The first pulse of a reservation numbers its record, and asks for its open write. -/
theorem recordIncrement_reserved {r : DispenseRec} (hr : s.ju.slots.get h = some (.reserved r))
    (hc : s.ju.counter ≠ max32) : ∃ queue current writeList writing, recordIncrement h g st s = { s with
      sc := { s.sc with queue := queue, current := current },
      ju := { s.ju with
        counter := s.ju.counter + 1, slots := s.ju.slots.set h (some (.numbered (s.ju.counter + 1))),
        recs := s.ju.recs ++ [JRec.mk (s.ju.counter + 1) s.lc.clock s.lc.sure (.dispense (r.add g st))
          .opened 0 none],
        writeList := writeList, writing := writing } } ∧
      (s.sc.current.isSome = true ∨ s.sc.queue.contains .su = false →
        (current.map Prod.fst = some .su ↔ s.sc.current.map Prod.fst = some .su)) := by
  unfold recordIncrement
  rw [hr]
  dsimp only
  rw [if_neg hc]
  unfold writeListAdd
  rw [askJournal_eq]
  exact ⟨_, _, _, _, rfl, fun hs => askJournal_under_iff (by simp) (by exact hs)⟩

/-- Whatever the record is, a pulse changes the journal and the requests for writes alone. -/
theorem recordIncrement_eq : recordIncrement h g st s = { s with
    sc := (recordIncrement h g st s).sc, ju := (recordIncrement h g st s).ju } := by
  unfold recordIncrement
  split
  · rfl
  · rfl
  · split
    · unfold updOpenDispense
      split <;> rfl
    · unfold writeListAdd
      dsimp only
      rw [askJournal_eq]
      rfl

end Record

/-! ### Checkpoints (R123) -/

section Checkpoint
variable {s : State} {h : Hose} {before : Nat}

theorem checkpointDue_of_flow {e : MuDispense}
    (hs : (s.hc.get h).state = .flowing ∨ (s.hc.get h).state = .stopping) (he : (s.mu.get h).dispense = some e) :
    checkpointDue s h before = decide (before / 10000000 < e.std / 10000000) := by
  unfold checkpointDue stdTotal
  rw [he]
  rcases hs with hs | hs <;> simp [hs]

theorem checkpointDue_authorised (hs : (s.hc.get h).state = .authorised) : checkpointDue s h before = false := by
  simp [checkpointDue, hs]

/-- A checkpoint asked for changes the requests for writes, and which entry JU writes. -/
theorem checkpoint_frame : ∃ queue current writeList writing,
    (if checkpointDue s h before then scAsk (.hc h) s else s) = { s with
      sc := { s.sc with queue := queue, current := current },
      ju := { s.ju with writeList := writeList, writing := writing } } := by
  split
  · exact ⟨_, _, _, _, scAsk_eq _ s⟩
  · exact ⟨_, _, _, _, rfl⟩

end Checkpoint

/-! ### Metered pulses -/

/-- The state after a forward pulse has been metered, before it is handed on. -/
def afterMeter (h : Hose) (e : MuDispense) (s : State) : State := { s with
  mu := s.mu.set h { s.mu.get h with
    rises := 0, falls := 0, edgeSeen := true, windowCount := satInc max16 (s.mu.get h).windowCount,
    dispense := some e },
  su := { s.su with lastMove := s.now } }

theorem afterMeter_dispense (h : Hose) (e : MuDispense) (s : State) :
    ((afterMeter h e s).mu.get h).dispense = some e := by
  simp [afterMeter]

section Pulse
variable {s : State} {h : Hose} {levelB : Bool} {d e : MuDispense} {g st : Nat}

theorem exec_pulse_billed (hp : s.power = .released) (hj : judgeEdge (s.mu.get h) levelB = .forward)
    (hd : (s.mu.get h).dispense = some d) (hb : d.isProve = false)
    (hm : d.meter (s.cfg.params.hose.get h).pulseWeight (s.cfg.params.hose.get h).alpha = (g, st, e)) :
    exec (.pulse h levelB) s = .next (billedPulse h d.std g st (afterMeter h e s)) :=
  (exec_pulse_forward s hp hj hd hm).trans (congrArg Host.Outcome.next (if_neg (by simp [hb])))

theorem exec_pulse_prove (hp : s.power = .released) (hj : judgeEdge (s.mu.get h) levelB = .forward)
    (hd : (s.mu.get h).dispense = some d) (hb : d.isProve = true)
    (hm : d.meter (s.cfg.params.hose.get h).pulseWeight (s.cfg.params.hose.get h).alpha = (g, st, e)) :
    exec (.pulse h levelB) s = .next (hosePulse h st (afterMeter h e s)) :=
  (exec_pulse_forward s hp hj hd hm).trans (congrArg Host.Outcome.next (if_pos hb))

end Pulse

/-- A pulse of a billed dispense in FLOWING or STOPPING, its record numbered. -/
theorem billedPulse_flow {s t : State} {h : Hose} {before g st : Nat} {e : MuDispense}
    (ht : hosePulse h st (suIncrement st (recordIncrement h g st s)) = t)
    (hs : (t.hc.get h).state = .flowing ∨ (t.hc.get h).state = .stopping) (he : (t.mu.get h).dispense = some e) :
    billedPulse h before g st s = if before / 10000000 < e.std / 10000000 then scAsk (.hc h) t else t := by
  unfold billedPulse
  dsimp only
  rw [ht, checkpointDue_of_flow hs he]
  simp only [decide_eq_true_eq]

/-- In every state a billed pulse leaves what the hose makes of it, but for a checkpoint's requests. -/
theorem billedPulse_frame {s t : State} {h : Hose} {before g st : Nat}
    (ht : hosePulse h st (suIncrement st (recordIncrement h g st s)) = t) :
    ∃ queue current writeList writing, billedPulse h before g st s = { t with
      sc := { t.sc with queue := queue, current := current },
      ju := { t.ju with writeList := writeList, writing := writing } } := by
  subst ht
  exact checkpoint_frame

end Sys2Proof.Machine

/-! Forward pulses by the state of the hose (sections 5.2, 6.3 and 6.4). -/

namespace Sys2Proof.Machine

/-! ### Pulses that do not reach the limit -/

section Below
variable {s : State} {h : Hose} {std : Nat} {e : MuDispense} {slow : Prop} [Decidable slow]

theorem hosePulse_flowing_below (hs : (s.hc.get h).state = .flowing) (he : (s.mu.get h).dispense = some e)
    (hslow : slow ↔ (s.hc.get h).stage = .full ∧ (s.hc.get h).limit.getD 0 * 10000
      ≤ e.std + (s.cfg.params.hose.get h).slowDown * 10000)
    (hb : e.std < (s.hc.get h).limit.getD 0 * 10000) :
    hosePulse h std s = { s with hc := s.hc.set h { s.hc.get h with
      idleAt := some (s.now + sec 60), stage := if slow then .slow else (s.hc.get h).stage } } := by
  rw [hosePulse_flowing hs, pulseCompares_eq (slow := slow) (total := e.std)
    (compareTotal_std (by simp [State.updHc, hs]) (by exact he)) (by simpa [State.updHc] using hslow)
    (by simpa [State.updHc] using hb)]
  simp only [State.updHc, Two.get_set_self, Two.set_set]

/-- The first pulse of a joined hose. -/
theorem hosePulse_first_below (hs : (s.hc.get h).state = .authorised) (hj : (s.hc.get h).joined = true)
    (hw : s.warned = false) (hbusy : (s.tiu.get h).busy = .idle) (he : (s.mu.get h).dispense = some e)
    (hslow : slow ↔ (s.hc.get h).stage = .full ∧ (s.hc.get h).limit.getD 0 * 10000
      ≤ e.std + (s.cfg.params.hose.get h).slowDown * 10000)
    (hb : e.std < (s.hc.get h).limit.getD 0 * 10000) :
    hosePulse h std s = { s with
      hc := s.hc.set h { s.hc.get h with
        state := .flowing, noFlowAt := none, idleAt := some (s.now + sec 60), probeAt := some (s.now + sec 1),
        stage := if slow then .slow else (s.hc.get h).stage },
      au := { s.au with session := s.au.session.set h (Session.empty (s.au.session.get h).serial) },
      tiu := s.tiu.set h ((s.tiu.get h).start .hc .probe s.now) } := by
  rw [hosePulse_authorised_joined hs hj, firstPulse_eq hw hbusy, pulseCompares_eq (slow := slow) (total := e.std)
    (compareTotal_std (by simp) (by exact he)) (by simpa using hslow) (by simpa using hb)]
  simp only [Two.get_set_self, Two.set_set]

theorem hosePulse_prove_below (hs : (s.hc.get h).state = .proving) (hp : s.prove.phase = .run)
    (hend : (s.hc.get h).endCause = none) (he : (s.mu.get h).dispense = some e)
    (hslow : slow ↔ (s.hc.get h).stage = .full ∧ (s.hc.get h).limit.getD 0 * 10000
      ≤ e.gross + (s.cfg.params.hose.get h).slowDown * 10000)
    (hb : e.gross < (s.hc.get h).limit.getD 0 * 10000) :
    hosePulse h std s = { s with hc := s.hc.set h { s.hc.get h with
      idleAt := if (s.hc.get h).joined then some (s.now + sec 60) else none,
      stage := if slow then .slow else (s.hc.get h).stage } } := by
  rw [hosePulse_prove_run hs hp hend, pulseCompares_eq (slow := slow) (total := e.gross)
    (compareTotal_gross (by simp [State.updHc, hs]) (by exact he)) (by simpa [State.updHc] using hslow)
    (by simpa [State.updHc] using hb)]
  simp only [State.updHc, Two.get_set_self, Two.set_set]

end Below

/-- Settles O40: JU's and SU's part of a billed pulse first, then the HC's by the state of the hose. -/
theorem forwardPulseIsMetered : Obligations.ForwardPulseIsMetered := by
  refine ⟨fun s h levelB d hour hours g st e mu su slow _ hp hj hd hbill hh hm hmu hsu hslow => ?_,
    fun s h levelB d g st e slow _ hp hj hd hprove hs hrun hm hslow => ⟨fun hend hb => ?_, fun hend => ?_⟩⟩
  · have pulse := exec_pulse_billed hp hj hd hbill hm
    have isOpen : (mu.get h).dispense = some e := by rw [hmu]; simp
    have booked : ∀ n, s.ju.slots.get h = some (.numbered n) →
        suIncrement st (recordIncrement h g st (afterMeter h e s)) = { s with
          mu := mu, su := su, ju := s.ju.upd n (fun r => r.updDispense (fun x => x.add g st)) } := by
      intro n hn
      rw [recordIncrement_numbered (by exact hn), suIncrement_eq (by exact hh), hmu, hsu]
      rfl
    have numbered : ∀ r, s.ju.slots.get h = some (.reserved r) → s.ju.counter ≠ max32 →
        ∃ q c l w, suIncrement st (recordIncrement h g st (afterMeter h e s)) = { s with
          mu := mu,
          su := { su with again := s.su.again || decide (c.map Prod.fst = some .su) },
          sc := { s.sc with queue := q, current := c },
          ju := { s.ju with
            counter := s.ju.counter + 1, slots := s.ju.slots.set h (some (.numbered (s.ju.counter + 1))),
            recs := s.ju.recs ++ [JRec.mk (s.ju.counter + 1) s.lc.clock s.lc.sure (.dispense (r.add g st))
              .opened 0 none],
            writeList := l, writing := w } } ∧
        (s.sc.current.isSome = true ∨ s.sc.queue.contains .su = false →
          { su with again := s.su.again || decide (c.map Prod.fst = some .su) } = su) := by
      intro r hr hc
      obtain ⟨q, c, l, w, record, under⟩ :=
        recordIncrement_reserved (s := afterMeter h e s) (g := g) (st := st) (by exact hr) (by exact hc)
      refine ⟨q, c, l, w, ?_, fun hs => ?_⟩
      · rw [record, suIncrement_eq (by exact hh), hmu, hsu]
        rfl
      · rw [decide_eq_decide.2 (under (by exact hs)), hsu]
        rfl
    refine ⟨fun n hs hn hb => ?_, fun n hs hn => ?_, fun r hs hjoin hr hc hb hbusy hw => ?_,
      fun r hs hjoin hr hc hb => ?_, fun n hs hn hb => ⟨fun hjoin => ?_, fun hjoin hbusy hw => ?_⟩⟩
    · refine pulse.trans (congrArg Host.Outcome.next (billedPulse_flow ?_ ?_ isOpen))
      · rw [booked n hn, hosePulse_flowing_below (slow := slow) (by exact hs) (by exact isOpen) (by exact hslow)
          (by exact hb)]
      · simp [hs]
    · refine pulse.trans (congrArg Host.Outcome.next (billedPulse_flow ?_ ?_ isOpen))
      · rw [booked n hn, hosePulse_stopping (by exact hs)]
        rfl
      · simp [hs]
    · obtain ⟨q, c, l, w, record, same⟩ := numbered r hr hc
      obtain ⟨q', c', l', w', handed⟩ := billedPulse_frame (before := d.std)
        ((congrArg (hosePulse h st) record).trans (hosePulse_first_below (slow := slow) (by exact hs)
          (by exact hjoin) (by exact hw) (by exact hbusy) (by exact isOpen) (by exact hslow) (by exact hb)))
      refine ⟨_, pulse.trans (congrArg Host.Outcome.next handed), rfl, rfl, same, rfl, ?_, ?_, ?_, rfl, ?_, rfl⟩
      · exact Two.get_set_self _ _ _
      · simp [Tiu.start, Tiu.send]
      · simp [Tiu.start, Tiu.send]
      · exact Two.get_set_self _ _ _
    · obtain ⟨q, c, l, w, record, same⟩ := numbered r hr hc
      rw [pulse, billedPulse, record, hosePulse_authorised_waiting (by exact hs) (by exact hjoin)
        (by rw [compareTotal_std (e := e) (by simp [hs]) (by exact isOpen)]; exact hb)]
      dsimp only
      rw [checkpointDue_authorised (by exact hs)]
      exact ⟨_, rfl, rfl, rfl, same, rfl, rfl, rfl, rfl, Two.get_set_self _ _ _, rfl⟩
    · rw [pulse, billedPulse, booked n hn, hosePulse_authorised_waiting (by exact hs) (by exact hjoin)
        (by rw [compareTotal_std (e := e) (by simp [hs]) (by exact isOpen)]; exact hb)]
      rw [checkpointDue_authorised (by exact hs)]
      rfl
    · obtain ⟨q', c', l', w', handed⟩ := billedPulse_frame (before := d.std)
        ((congrArg (hosePulse h st) (booked n hn)).trans (hosePulse_first_below (slow := slow) (by exact hs)
          (by exact hjoin) (by exact hw) (by exact hbusy) (by exact isOpen) (by exact hslow) (by exact hb)))
      refine ⟨_, pulse.trans (congrArg Host.Outcome.next handed), rfl, rfl, rfl, ?_, ?_, rfl, rfl, rfl⟩
      · exact Two.get_set_self _ _ _
      · simp [Tiu.start, Tiu.send]
  · rw [exec_pulse_prove hp hj hd hprove hm, hosePulse_prove_below (slow := slow) (by exact hs) (by exact hrun)
      (by exact hend) (afterMeter_dispense h e s) (by exact hslow) (by exact hb)]
    rfl
  · rw [exec_pulse_prove hp hj hd hprove hm, hosePulse_prove_drain (by exact hs) (by exact hend)]
    rfl

end Sys2Proof.Machine

/-! The limit, the edges that meter nothing, and the window ends (sections 5.2, 5.3 and 6.4). -/

namespace Sys2Proof.Machine

/-! ### The end of a flow (R113, R128) -/

/-- A change of the open record changes the journal alone. -/
theorem updOpenDispense_eq (h : Hose) (f : DispenseRec → DispenseRec) (s : State) :
    updOpenDispense h f s = { s with ju := (updOpenDispense h f s).ju } := by
  unfold updOpenDispense
  split <;> rfl

section EndFlow
variable {s : State} {h : Hose} {c : EndCause}

theorem endFlow_hc : (endFlow h c s).hc = s.hc.set h { (s.hc.get h).ends c with
    state := .stopping, drainAt := some (s.now + sec 3), drainLimitAt := some (s.now + sec 30) } := by
  unfold endFlow
  rw [updOpenDispense_eq]
  rfl

theorem endFlow_su : (endFlow h c s).su = s.su := by
  unfold endFlow
  rw [updOpenDispense_eq]
  rfl

theorem hoseEnd_flowing (hs : (s.hc.get h).state = .flowing) : hoseEnd h c s = endFlow h c s := by
  unfold hoseEnd
  rw [hs]

theorem hoseEnd_prove (hs : (s.hc.get h).state = .proving) (hp : s.prove.phase = .run)
    (he : (s.hc.get h).endCause = none) : hoseEnd h c s = endProveRun h c s := by
  have flows : proveFlows h s = true := by simp [proveFlows, hs, hp, he]
  unfold hoseEnd
  rw [hs]
  exact if_pos flows

theorem Hc.ends_closes (x : Hc) (c : EndCause) : (x.ends c).stage = .closed ∧ (x.ends c).endCause = some c :=
  ⟨rfl, rfl⟩

end EndFlow

/-! ### A pulse that reaches the limit (R112, R131) -/

section Limit
variable {s : State} {h : Hose} {std : Nat} {e : MuDispense}

/-- The stage compare changes the hose's stage at most. -/
theorem stageCompare_frame : ∃ x : Stage,
    stageCompare h s = { s with hc := s.hc.set h { s.hc.get h with stage := x } } := by
  unfold stageCompare State.updHc
  dsimp only
  split
  · exact ⟨.slow, rfl⟩
  · exact ⟨(s.hc.get h).stage, rfl⟩

/-- The pulse ends the flow, whatever the stage compare has made of the stage. -/
theorem hosePulse_flowing_reached (hs : (s.hc.get h).state = .flowing) (he : (s.mu.get h).dispense = some e)
    (hb : (s.hc.get h).limit.getD 0 * 10000 ≤ e.std) : ∃ x : Stage, hosePulse h std s = endFlow h .limit { s with
      hc := s.hc.set h { s.hc.get h with idleAt := some (s.now + sec 60), stage := x } } := by
  have total := compareTotal_std (h := h) (e := e)
    (s := s.updHc h (fun x => { x with idleAt := some (s.now + sec 60) })) (by simp [State.updHc, hs]) (by exact he)
  obtain ⟨x, staged⟩ := stageCompare_frame (h := h)
    (s := s.updHc h (fun x => { x with idleAt := some (s.now + sec 60) }))
  rw [hosePulse_flowing hs, pulseCompares_reached (by rw [total]; simpa [State.updHc] using hb), staged]
  refine ⟨x, (hoseEnd_flowing (by simp [State.updHc, hs])).trans ?_⟩
  simp only [State.updHc, Two.get_set_self, Two.set_set]

theorem hosePulse_prove_reached (hs : (s.hc.get h).state = .proving) (hp : s.prove.phase = .run)
    (hend : (s.hc.get h).endCause = none) (he : (s.mu.get h).dispense = some e)
    (hb : (s.hc.get h).limit.getD 0 * 10000 ≤ e.gross) :
    ∃ (x : Stage) (idle : Option Nat), hosePulse h std s = endProveRun h .limit { s with
      hc := s.hc.set h { s.hc.get h with idleAt := idle, stage := x } } := by
  have total := compareTotal_gross (h := h) (e := e) (s := s.updHc h (fun x =>
    { x with idleAt := if x.joined then some (s.now + sec 60) else none })) (by simp [State.updHc, hs]) (by exact he)
  obtain ⟨x, staged⟩ := stageCompare_frame (h := h) (s := s.updHc h (fun x =>
    { x with idleAt := if x.joined then some (s.now + sec 60) else none }))
  rw [hosePulse_prove_run hs hp hend, pulseCompares_reached (by rw [total]; simpa [State.updHc] using hb), staged]
  refine ⟨x, if (s.hc.get h).joined then some (s.now + sec 60) else none, (hoseEnd_prove (by simp [State.updHc, hs]) (by exact hp) (by simp [State.updHc, hend])).trans ?_⟩
  simp only [State.updHc, Two.get_set_self, Two.set_set]

/-- JU's and SU's part of a billed pulse: the book falls by the standard increment. -/
theorem handedOn_frame {g : Nat} : ∃ su sc ju, suIncrement std (recordIncrement h g std s)
    = { s with su := su, sc := sc, ju := ju } ∧ su.book = bookAdd s.su.book (-(std : Int)) := by
  rw [recordIncrement_eq]
  exact ⟨_, _, _, rfl, rfl⟩

end Limit

/-- Settles O41: the pulse that reaches the limit by the hose's part of it, the outputs by the stages. -/
theorem limitEndsTheDispense : Obligations.LimitEndsTheDispense := by
  refine ⟨fun s h levelB d g st e hp hj hd hbill hs hm hb => ?_,
    fun s h levelB d g st e hp hj hd hprove hs hrun hend hm hb => ?_, fun s h => ⟨fun hs => ?_, fun hs => ?_⟩⟩
  · obtain ⟨su, sc, ju, booked, fallen⟩ := handedOn_frame (h := h) (g := g) (std := st) (s := afterMeter h e s)
    obtain ⟨x, ended⟩ := hosePulse_flowing_reached (h := h) (std := st)
      (s := { afterMeter h e s with su := su, sc := sc, ju := ju }) hs (afterMeter_dispense h e s) hb
    obtain ⟨q, c, l, w, handed⟩ := billedPulse_frame (before := d.std)
      ((congrArg (hosePulse h st) booked).trans ended)
    refine ⟨_, (exec_pulse_billed hp hj hd hbill hm).trans (congrArg Host.Outcome.next handed), ?_⟩
    unfold valveOutputs
    dsimp only
    rw [endFlow_hc, endFlow_su]
    simp only [Two.get_set_self, Two.get_set_other]
    exact ⟨trivial, rfl, rfl, rfl, rfl, rfl, rfl, fallen⟩
  · obtain ⟨x, idle, ended⟩ := hosePulse_prove_reached (h := h) (std := st) (s := afterMeter h e s) hs hrun hend
      (afterMeter_dispense h e s) hb
    refine ⟨_, (exec_pulse_prove hp hj hd hprove hm).trans (congrArg Host.Outcome.next ended), ?_⟩
    unfold endProveRun leaveWaiting State.updHc
    simp only [Two.get_set_self, Two.get_set_other]
    exact ⟨hs, trivial, trivial, rfl, rfl, rfl, rfl, rfl⟩
  · unfold valveOutputs
    rw [hs]
    rfl
  · unfold valveOutputs
    rw [hs]
    rfl

/-! ### Edges that meter nothing (R89 to R91) -/

section Edges
variable {s : State} {h : Hose} {levelB : Bool}

theorem exec_pulse (hp : s.power = .released) : exec (.pulse h levelB) s = .next (risingA h levelB s) := if_pos hp

theorem exec_channelBEdge {rising : Bool} (hp : s.power = .released) :
    exec (.channelBEdge h rising) s = .next (s.updMu h (edgeB rising)) := if_pos hp

theorem risingA_forward (hj : judgeEdge (s.mu.get h) levelB = .forward) :
    risingA h levelB s = forwardPulse h (s.updMu h Mu.afterEdge) := by
  unfold risingA
  rw [hj]

theorem risingA_reverse (hj : judgeEdge (s.mu.get h) levelB = .reverse) :
    risingA h levelB s = reversePulse h (s.updMu h Mu.afterEdge) := by
  unfold risingA
  rw [hj]

theorem risingA_mismatch (hj : judgeEdge (s.mu.get h) levelB = .mismatch) :
    risingA h levelB s = mismatchEdge h (s.updMu h Mu.afterEdge) := by
  unfold risingA
  rw [hj]

theorem forwardPulse_stray (hd : (s.mu.get h).dispense = none) : forwardPulse h s = { s with
    mu := s.mu.set h { s.mu.get h with
      windowCount := satInc max16 (s.mu.get h).windowCount, stray := satInc max16 (s.mu.get h).stray },
    su := { s.su with lastMove := s.now } } := by
  unfold forwardPulse
  simp only [State.updMu, meterMoved, Two.get_set_self, Two.set_set]
  rw [hd]

theorem mismatchEdge_closed (hd : (s.mu.get h).dispense = none) : mismatchEdge h s = { s with
    mu := s.mu.set h { s.mu.get h with mismatch := satInc max16 (s.mu.get h).mismatch } } := by
  unfold mismatchEdge
  simp [State.updMu, hd]

/-- The 21st mismatch is the one that follows 20. -/
theorem twentyOne_le_satInc (n : Nat) : 21 ≤ satInc 255 n ↔ 20 ≤ n := by
  unfold satInc
  split <;> omega

theorem MuDispense.mismatch_eq (d : MuDispense) : d.mismatch = { d with
    mismatches := satInc 255 d.mismatches, faultReported := d.faultReported || decide (20 ≤ d.mismatches) } := by
  unfold MuDispense.mismatch
  rw [decide_eq_decide.2 (twentyOne_le_satInc d.mismatches)]

theorem faultDue_iff (d : MuDispense) : faultDue d = true ↔ 20 ≤ d.mismatches ∧ d.faultReported = false := by
  simp [faultDue, twentyOne_le_satInc]

theorem mismatchEdge_open {d : MuDispense} (hd : (s.mu.get h).dispense = some d) : mismatchEdge h s =
    (let u := { s with mu := s.mu.set h { s.mu.get h with
       mismatch := satInc max16 (s.mu.get h).mismatch,
       dispense := some { d with
         mismatches := satInc 255 d.mismatches,
         faultReported := d.faultReported || decide (20 ≤ d.mismatches) } } }
     if faultDue d then hoseEnd h .meterFault u else u) := by
  unfold mismatchEdge
  simp only [State.updMu, hd, Option.map_some, MuDispense.mismatch_eq]

end Edges

/-- Settles O42: by the judgement of the edge. -/
theorem edgesThatMeterNothing : Obligations.EdgesThatMeterNothing := by
  intro s h levelB rising hp
  refine ⟨fun hj hd => ?_, fun hj => ?_, fun hj hd => ?_, fun d hj hd => ?_, ?_⟩
  · rw [exec_pulse hp, risingA_forward hj, forwardPulse_stray (by simpa [State.updMu, Mu.afterEdge] using hd)]
    simp only [State.updMu, Mu.afterEdge, Two.get_set_self, Two.set_set]
  · rw [exec_pulse hp, risingA_reverse hj]
    simp only [reversePulse, State.updMu, Mu.afterEdge, Two.get_set_self, Two.set_set]
  · rw [exec_pulse hp, risingA_mismatch hj, mismatchEdge_closed (by simpa [State.updMu, Mu.afterEdge] using hd)]
    simp only [State.updMu, Mu.afterEdge, Two.get_set_self, Two.set_set]
  · have edge : exec (.pulse h levelB) s = .next (risingA h levelB s) := exec_pulse hp
    rw [risingA_mismatch hj, mismatchEdge_open (d := d) (by simpa [State.updMu, Mu.afterEdge] using hd)] at edge
    simp only [State.updMu, Mu.afterEdge, Two.get_set_self, Two.set_set] at edge
    refine ⟨fun hf => ?_, fun hm hf hs => ?_⟩
    · rw [edge, if_neg]
      rw [faultDue_iff]
      rintro ⟨many, unreported⟩
      rcases hf with few | reported
      · omega
      · simp [reported] at unreported
    · rw [edge, if_pos ((faultDue_iff d).2 ⟨hm, hf⟩), hoseEnd_flowing (by exact hs)]
  · rw [exec_channelBEdge hp]
    cases rising <;> rfl

/-! ### Window ends (R92 to R96) -/

section Window
variable {s : State} {h : Hose} {sample : TempSample}

theorem exec_flowWindowEnd (hp : s.power = .released) : exec (.flowWindowEnd h sample) s
    = .next (windowEnds h sample (s.reach (s.mu.get h).windowEnd)) := if_pos hp

theorem goodSample_eq {good : Option Int}
    (hg : (∃ t, sample = .reading t ∧ -400 ≤ t ∧ t ≤ 700 ∧ good = some t) ∨
      (sample = .fault ∨ ∃ t, sample = .reading t ∧ (t < -400 ∨ 700 < t)) ∧ good = none) :
    goodSample sample = good := by
  rcases hg with ⟨t, rfl, low, high, rfl⟩ | ⟨rfl | ⟨t, rfl, out⟩, rfl⟩
  · exact if_pos ⟨low, high⟩
  · rfl
  · exact if_neg (by omega)

end Window

/-- What a window end leaves outside the open dispense. -/
def afterWindow (h : Hose) (good : Option Int) (rate : Nat) (d : Option MuDispense) (s : State) : State := { s with
  now := max s.now (s.mu.get h).windowEnd,
  mu := s.mu.set h { s.mu.get h with
    windowCount := 0,
    windowEnd := (s.mu.get h).windowEnd + ms ((s.cfg.params.hose.get h).windowN * 100),
    lastRate := rate, lastTemp := if good.isSome then good else (s.mu.get h).lastTemp,
    sampleBad := good.isNone, dispense := d } }

theorem exec_flowWindowEnd_closed {s : State} {h : Hose} {sample : TempSample} {good : Option Int} {rate : Nat}
    (hp : s.power = .released) (hg : goodSample sample = good)
    (hr : rate = flowRate (s.mu.get h).windowCount (s.cfg.params.hose.get h).pulseWeight
      (s.cfg.params.hose.get h).windowN) (hd : (s.mu.get h).dispense = none) :
    exec (.flowWindowEnd h sample) s = .next (afterWindow h good rate none s) := by
  rw [exec_flowWindowEnd hp]
  simp [windowEnds, State.reach, forcedSlowReported, hd, State.updMu, Mu.windowEnds, hg, ← hr, afterWindow]

theorem exec_flowWindowEnd_open {s : State} {h : Hose} {sample : TempSample} {good : Option Int} {rate : Nat}
    {d : MuDispense} (hp : s.power = .released) (hg : goodSample sample = good)
    (hr : rate = flowRate (s.mu.get h).windowCount (s.cfg.params.hose.get h).pulseWeight
      (s.cfg.params.hose.get h).windowN) (hd : (s.mu.get h).dispense = some d) :
    exec (.flowWindowEnd h sample) s = .next (
      let u := afterWindow h good rate (some (d.windowEnds (s.mu.get h).limits rate good)) s
      if (d.chooseBand (s.mu.get h).limits rate).forcedSlowDue then forcedSlow h u else u) := by
  rw [exec_flowWindowEnd hp]
  simp [windowEnds, State.reach, forcedSlowReported, hd, State.updMu, Mu.windowEnds, hg, ← hr, afterWindow]

/-- Within the band limits no FORCED_SLOW is reported. -/
theorem chooseBand_forcedSlowDue_band {d : MuDispense} {limits : Quad Nat} {rate band : Nat}
    (hb : bandFor limits rate = some band) : (d.chooseBand limits rate).forcedSlowDue = false := by
  simp [MuDispense.chooseBand, hb, MuDispense.forcedSlowDue]

/-- Above them all it is reported at the third window in a row, once. -/
theorem chooseBand_forcedSlowDue_overspeed {d : MuDispense} {limits : Quad Nat} {rate : Nat}
    (hb : bandFor limits rate = none) : (d.chooseBand limits rate).forcedSlowDue
      = (decide (satInc 3 d.consecutive = 3) && !d.forcedSlow) := by
  simp [MuDispense.chooseBand, hb, MuDispense.forcedSlowDue]

/-- A window that is not the third in a row, or comes after the report, reports nothing. -/
theorem third_due {n : Nat} {reported : Bool} (h : n < 2 ∨ reported = true) :
    (decide (satInc 3 n = 3) && !reported) = false := by
  rcases h with few | rfl
  · have below : satInc 3 n ≠ 3 := by unfold satInc; split <;> omega
    simp [below]
  · simp

theorem third_reported {n : Nat} {reported : Bool} (h : n < 2 ∨ reported = true) :
    (reported || decide (satInc 3 n = 3)) = reported := by
  have due := third_due h
  cases reported <;> simp_all

/-- Settles O43: with the meter closed, within the band limits, and above them all. -/
theorem flowWindowEnds : Obligations.FlowWindowEnds := by
  intro s h sample good rate hp hg hr
  have hgood := goodSample_eq hg
  refine ⟨exec_flowWindowEnd_closed hp hgood hr, fun d hd => ⟨fun band hb => ?_, fun hb => ⟨fun hc => ?_, fun hc hf => ?_⟩⟩⟩
  · rw [exec_flowWindowEnd_open hp hgood hr hd, chooseBand_forcedSlowDue_band hb, MuDispense.windowEnds_band _ _ hb]
    rfl
  · rw [exec_flowWindowEnd_open hp hgood hr hd, chooseBand_forcedSlowDue_overspeed hb,
      MuDispense.windowEnds_overspeed _ _ hb, third_reported hc, third_due hc]
    rfl
  · rw [exec_flowWindowEnd_open hp hgood hr hd, chooseBand_forcedSlowDue_overspeed hb,
      MuDispense.windowEnds_overspeed _ _ hb, hc, hf]
    rfl

end Sys2Proof.Machine

/-! Lifts, whole seconds, and the time limits of sessions and queries (sections 3.7, 4.2 and 6.2). -/

namespace Sys2Proof.Machine

/-! ### Tag requests (R30) -/

/-- An idle TIU takes a request before the warning. -/
theorem tagRequest_taken {s : State} {h : Hose} {who : TagRequester} {ask : TagAsk} (hw : s.warned = false)
    (hb : (s.tiu.get h).busy = .idle) :
    tagRequest h who ask s = (true, s.updTiu h (fun t => t.start who ask s.now)) :=
  if_neg (by simp [hw, hb])

/-! ### Lifts (R65, R106) -/

theorem exec_nozzleLift {s : State} {h : Hose} (hp : s.power = .released) (hn : (s.hc.get h).nozzleOut = false) :
    exec (.nozzleLift h) s = .next (lifted h s) :=
  (if_pos hp : exec (.nozzleLift h) s = _).trans (congrArg Host.Outcome.next (if_neg (by simp [hn])))

theorem lifted_idle {s : State} {h : Hose} (hs : (s.hc.get h).state = .idle) (hw : s.warned = false) :
    lifted h s = startSession h (({ s with pp := { s.pp with selected := h } }.updHc h
      (fun hc => { hc with nozzleOut := true })).updHc h (fun hc => { hc with state := .identifying })) := by
  unfold lifted
  rw [hs]
  exact if_neg (by simp [hw])

/-- Settles O44: the session starts with the READ that an idle TIU takes. -/
theorem liftStartsASession : Obligations.LiftStartsASession := by
  intro s h hp hw hn hs hb
  rw [exec_nozzleLift hp hn, lifted_idle hs hw]
  unfold startSession requestRead
  rw [tagRequest_taken (by exact hw) (by exact hb)]
  simp only [State.updHc, State.updSession, State.updTiu, Two.get_set_self, Two.set_set]
  rfl

/-! ### Whole seconds (R65, R114) -/

theorem dueIn_of_state {s : State} {h : Hose} {state : HoseState} {due : Option Nat}
    (hs : (s.hc.get h).state = state) : dueIn s h state due = due := if_pos hs

theorem exec_readRequestSecond {s : State} {h : Hose} {d : Nat} (hp : s.power = .released)
    (hs : (s.hc.get h).state = .identifying) (hd : (s.au.session.get h).nextRead = some d) :
    exec (.readRequestSecond h) s = .next (readSecond h (s.reach d)) :=
  live_atDue (due := fun s => dueIn s h .identifying (s.au.session.get h).nextRead) hp ((dueIn_of_state hs).trans hd)

theorem exec_probeSecond {s : State} {h : Hose} {d : Nat} (hp : s.power = .released)
    (hs : (s.hc.get h).state = .flowing) (hd : (s.hc.get h).probeAt = some d) :
    exec (.probeSecond h) s = .next (probeSecond h (s.reach d)) :=
  live_atDue (due := fun s => dueIn s h .flowing (s.hc.get h).probeAt) hp ((dueIn_of_state hs).trans hd)

/-- Settles O45: the READ of a session and the PROBE of a flow, at an idle TIU. -/
theorem wholeSecondsAskTheTag : Obligations.WholeSecondsAskTheTag := by
  refine fun s h d hp hw hb => ⟨fun hs hd => ?_, fun hs hd => ?_⟩
  · rw [exec_readRequestSecond hp hs hd]
    unfold readSecond requestRead
    rw [tagRequest_taken (by exact hw) (by exact hb)]
    simp only [State.updSession, State.updTiu, State.reach, Two.get_set_self, hd, Option.map_some]
    rfl
  · rw [exec_probeSecond hp hs hd]
    unfold probeSecond probe
    rw [tagRequest_taken (by exact hw) (by exact hb)]
    simp only [State.updHc, State.updTiu, State.reach, hd, Option.map_some]
    rfl

/-! ### Refusals (R78, R79) -/

section Refuse
variable {s : State} {h : Hose} {r : RefusalReason}

/-- A release changes the machine table alone, and by the session's machine alone. -/
theorem releaseHeld_eq : releaseHeld h s = { s with mt := (releaseHeld h s).mt } := by
  unfold releaseHeld
  split <;> rfl

theorem releaseHeld_held {f : FixedPart} (hi : (s.au.session.get h).ident = some .held)
    (hf : (s.au.session.get h).fixed = some f) : releaseHeld h s = release h f.machine s := by
  unfold releaseHeld
  rw [hi, hf]

theorem refusalRecord_taken {machine operator : Option Nat} (hw : s.warned = false) (hf : 64 ≤ s.ju.free)
    (hs : s.sc.fault = false) :
    refusalRecord h r machine operator s = takeRecord (.refusal h r machine operator) s := by
  unfold refusalRecord
  rw [if_pos ⟨hf, hs⟩, requestRecord_taken hw (by omega)]

theorem refusalRecord_none {machine operator : Option Nat} (hn : s.ju.free < 64 ∨ s.sc.fault = true) :
    refusalRecord h r machine operator s = s := by
  unfold refusalRecord
  refine if_neg ?_
  rintro ⟨many, good⟩
  rcases hn with few | fault
  · omega
  · simp [fault] at good

/-- A REFUSAL record asked for changes the journal and the requests for writes. -/
theorem refusalRecord_eq {machine operator : Option Nat} : refusalRecord h r machine operator s = { s with
    sc := (refusalRecord h r machine operator s).sc, ju := (refusalRecord h r machine operator s).ju } := by
  unfold refusalRecord requestRecord
  split
  · split
    · rfl
    · unfold takeRecord writeListAdd
      dsimp only
      rw [askJournal_eq]
      rfl
  · rfl

/-- The state in which a refusal asks for its record. -/
def refusing (h : Hose) (s : State) : State := releaseHeld h (takePending h s)

theorem refusing_eq : refusing h s = { takePending h s with mt := (refusing h s).mt } := releaseHeld_eq

/-- A refusal: the hose waits to be hung, the session is NONE, and the record is as asked for. -/
theorem refuse_eq : refuse h r s =
    (let asked := refusalRecord h r (refusalMachine (s.au.session.get h)) (s.pp.pendingOp.get h) (refusing h s)
     { takePending h s with
       mt := (refusing h s).mt, sc := asked.sc, ju := asked.ju,
       hc := s.hc.set h ({ s.hc.get h with state := .hangWait }.show (.refused r)),
       au := { (takePending h s).au with
         session := s.au.session.set h (Session.empty (s.au.session.get h).serial) } }) := by
  unfold refuse
  dsimp only
  rw [← refusing, refusalRecord_eq, refusing_eq]
  rfl

end Refuse

theorem exec_tagReadTimeLimit {s : State} {h : Hose} {start : Nat} (hp : s.power = .released)
    (hs : (s.hc.get h).state = .identifying) (hd : (s.au.session.get h).startAt = some start) :
    exec (.tagReadTimeLimit h) s = .next (refuse h .tagUnreadable (s.reach (start + sec 60))) :=
  live_atDue (due := fun s => dueIn s h .identifying ((s.au.session.get h).startAt.map (fun t => t + sec 60))) hp
    ((dueIn_of_state hs).trans (by rw [hd]; rfl))

theorem exec_keyWaitTimeLimit {s : State} {h : Hose} {start : Nat} (hp : s.power = .released)
    (hs : (s.hc.get h).state = .awaitKey) (hd : (s.au.session.get h).keyWaitFrom = some start) :
    exec (.keyWaitTimeLimit h) s = .next (refuse h .keyRequired (s.reach (start + sec 30))) :=
  live_atDue (due := fun s => dueIn s h .awaitKey ((s.au.session.get h).keyWaitFrom.map (fun t => t + sec 30))) hp
    ((dueIn_of_state hs).trans (by rw [hd]; rfl))

/-! ### Ends of a query wait (R59, R60, R73) -/

section Query
variable {s : State} {h : Hose} {m id since : Nat}

theorem exec_querySendLimit (hp : s.power = .released) (hw : s.mt.wait.get h = .sending m id since) :
    exec (.querySendLimit h) s = .next (endWait h m (s.reach (since + sec 10))) := by
  have limit : exec (.querySendLimit h) s = .next _ := if_pos hp
  rw [limit]
  dsimp only
  rw [hw]

theorem exec_queryAnswerTime (hp : s.power = .released) (hw : s.mt.wait.get h = .waiting m id since) :
    exec (.queryAnswerTime h) s = .next (endWait h m (s.reach (since + sec s.cfg.params.queryWait))) := by
  have limit : exec (.queryAnswerTime h) s = .next _ := if_pos hp
  rw [limit]
  dsimp only
  rw [hw]

theorem endWait_joined (hs : (s.hc.get h).state = .querying) (hl : s.lc.link = .joined) :
    endWait h m s = grantBlind h false { s with
      mt := { s.mt.upd m (fun e => { e with fresh := some s.lc.clock }) with wait := s.mt.wait.set h .none } } := by
  unfold endWait waitEnded endWaitTable
  rw [if_pos hl]
  simp only [setWait, hs, hl, if_true, decide_true, Bool.not_true]
  rfl

theorem endWait_notJoined (hs : (s.hc.get h).state = .querying) (hl : s.lc.link ≠ .joined) :
    endWait h m s = grantBlind h true { s with mt := { s.mt with wait := s.mt.wait.set h .none } } := by
  unfold endWait waitEnded endWaitTable
  rw [if_neg hl]
  simp only [setWait, hs, hl, if_true, decide_false, Bool.not_false]

end Query

/-- Settles O46: both limits refuse, and both ends of a wait go to grant by the link. -/
theorem sessionAndQueryTimeLimits : Obligations.SessionAndQueryTimeLimits := by
  refine ⟨fun s h i reason start due hp hw hi => ⟨refuse h reason (s.reach due), ?_, ?_⟩,
    fun s h i m id since due hp hs hi => ?_⟩
  · rcases hi with ⟨rfl, rfl, hs, hd, rfl⟩ | ⟨rfl, rfl, hs, hd, rfl⟩
    · exact exec_tagReadTimeLimit hp hs hd
    · exact exec_keyWaitTimeLimit hp hs hd
  · have record := fun (hf : 64 ≤ s.ju.free) (hfault : s.sc.fault = false) =>
      refusalRecord_taken (h := h) (r := reason) (machine := refusalMachine (s.au.session.get h))
        (operator := s.pp.pendingOp.get h) (s := refusing h (s.reach due)) (by rw [refusing_eq]; exact hw)
        (by rw [refusing_eq]; exact hf) (by rw [refusing_eq]; exact hfault)
    rw [refuse_eq]
    refine ⟨rfl, ?_, fun hn => ?_, ?_, ?_, ?_, ?_, fun f hi hf => ?_, fun hf hfault => ?_, fun hn => ?_, rfl, rfl⟩
    · exact congrArg Hc.state (Two.get_set_self _ _ _)
    · refine (congrArg Hc.shown (Two.get_set_self _ _ _)).trans ?_
      exact if_pos hn
    · exact Two.get_set_other _ _ _
    · exact Two.get_set_self _ _ _
    · exact Two.get_set_self _ _ _
    · exact Two.get_set_self _ _ _
    · have held := congrArg State.mt (releaseHeld_held (s := takePending h (s.reach due)) hi hf)
      exact held
    · refine (congrArg (fun x : State => x.ju.recs) (record hf hfault)).trans ?_
      rw [takeRecord_ju_recs, refusing_eq]
      rfl
    · refine (congrArg State.ju (refusalRecord_none (s := refusing h (s.reach due)) (by rw [refusing_eq]; exact hn))).trans ?_
      rw [refusing_eq]
      rfl
  · have ended : exec i s = .next (endWait h m (s.reach due)) := by
      rcases hi with ⟨rfl, hw, rfl⟩ | ⟨rfl, hw, rfl⟩
      · exact exec_querySendLimit hp hw
      · exact exec_queryAnswerTime hp hw
    refine ⟨fun hl => ?_, fun hl => ?_⟩
    · rw [ended, endWait_joined (by exact hs) (by exact hl)]
      rfl
    · rw [ended, endWait_notJoined (by exact hs) (by exact hl)]
      rfl

end Sys2Proof.Machine

/-! Sessions from the tag to the grant, and the granted limit (chapter 4). -/

namespace Sys2Proof.Machine

/-! ### The tag (R31, R32, R66) -/

section Tag
variable {s : State} {h : Hose} {fixed : FixedPart} {f1 f2 : List Byte}

theorem readCode_good {hist : History}
    (hv : hist.valid = true → hist.machine = fixed.machine ∧ hist.idCheck = fixed.machine % 256) :
    readCode fixed hist = .readDone := by
  unfold readCode
  by_cases valid : hist.valid = true
  · obtain ⟨machine, check⟩ := hv valid
    rw [if_neg (by simp [valid]), if_neg (by simp [machine, check])]
  · rw [if_pos (by simpa using valid)]

/-- The report of a session's own READ goes to the session. -/
theorem readReport_own {r : TagRecord} {serial : Nat} (hs : (s.hc.get h).state = .identifying)
    (hn : (s.au.session.get h).serial = serial) (hr : (s.tiu.get h).record = some r) :
    readReport h serial .readDone s = takeTag h r s := by
  unfold readReport
  rw [if_pos ⟨hs, hn, rfl⟩, hr]

/-- DONE to the read of fragment 2 of a good tag. -/
theorem takeAnswer_done_read2 {r : TagRecord} (hb : (s.tiu.get h).busy = .read2 fixed f1)
    (hq : (s.tiu.get h).requester = some (.au (s.au.session.get h).serial))
    (hs : (s.hc.get h).state = .identifying) (hr : r = { fixed := fixed, history := historyOf f1 f2 })
    (hv : r.history.valid = true → r.history.machine = fixed.machine ∧ r.history.idCheck = fixed.machine % 256) :
    takeAnswer h (.done f2) s = takeTag h r { s with
      tiu := s.tiu.set h { s.tiu.get h with
        busy := .idle, requester := none, waiting := none, code := some .readDone, record := some r,
        present := true, misses := 0 } } := by
  subst hr
  have good : readCode fixed (historyOf f1 f2) = .readDone := readCode_good hv
  simp only [takeAnswer, answeredDone, hb, readEnds, good, if_true, finishTag, State.updTiu, Two.get_set_self,
    Two.set_set, hq]
  rw [readReport_own (r := { fixed := fixed, history := historyOf f1 f2 }) (by exact hs) (by rfl)
    (by simp [Tiu.finish])]
  rfl

end Tag

/-! ### The checks (R67 to R72) -/

section Checks
variable {s : State} {h : Hose} {r : TagRecord} {f : FixedPart}

theorem takeTag_invalid (hf : fixedPartOk r.fixed = false) : takeTag h r s
    = refuse h .tagInvalid (s.updSession h (fun se => { se with fixed := some r.fixed, nextRead := none })) :=
  if_neg (by simp [hf])

/-- A tag in its ranges is identified, and then checked. -/
theorem takeTag_checked (hf : fixedPartOk r.fixed = true) : takeTag h r s =
    (let v := identification h r (s.updSession h (fun se => { se with fixed := some r.fixed, nextRead := none }))
     match checksOneFour r.fixed ((v.au.session.get h).ident.getD .held) v with
     | some x => refuse h x v
     | none => checkKey h r.fixed v) := if_pos hf

theorem checksOneFour_notConfigured {ident : Ident} (hc : s.cfg.configured = false) :
    checksOneFour f ident s = some .notConfigured := if_pos hc

theorem checksOneFour_fault {ident : Ident} (hc : s.cfg.configured = true) (hf : s.sc.fault = true) :
    checksOneFour f ident s = some .storeFault := by
  unfold checksOneFour
  rw [if_neg (by simp [hc]), if_pos hf]

theorem checksOneFour_product {ident : Ident} (hc : s.cfg.configured = true) (hf : s.sc.fault = false)
    (hp : f.product ≠ s.cfg.params.product) : checksOneFour f ident s = some .wrongProduct := by
  unfold checksOneFour
  rw [if_neg (by simp [hc]), if_neg (by simp [hf]), if_pos hp]

/-- The last of the four is the machine's other hose. -/
theorem checksOneFour_ident {ident : Ident} (hc : s.cfg.configured = true) (hf : s.sc.fault = false)
    (hp : f.product = s.cfg.params.product) :
    checksOneFour f ident s = if ident = .otherHose then some .machineBusy else none := by
  unfold checksOneFour
  rw [if_neg (by simp [hc]), if_neg (by simp [hf]), if_neg (by simp [hp])]

theorem checkKey_waits (hk : f.keyRequired = true) (hn : s.pp.pendingOp.get h = none) : checkKey h f s
    = (s.updSession h (fun se => { se with keyWaitFrom := some s.now })).updHc h
      (fun hc => { hc with state := .awaitKey }) := if_pos ⟨hk, by simp [hn]⟩

theorem checkKey_goesOn (hk : f.keyRequired = false ∨ (s.pp.pendingOp.get h).isSome = true) :
    checkKey h f s = afterKey h s := by
  refine if_neg ?_
  rintro ⟨required, missing⟩
  rcases hk with free | present
  · simp [free] at required
  · simp [Option.isNone_iff_eq_none.1 missing] at present

theorem checksSixSeven_full (hf : s.ju.free < 3) : checksSixSeven f s = some .journalFull := if_pos hf

theorem checksSixSeven_class (hf : 3 ≤ s.ju.free) (hc : isBC f.cls = true)
    (hl : s.ju.free < 64 ∨ s.su.loss = true) : checksSixSeven f s = some .classRestricted := by
  unfold checksSixSeven
  rw [if_neg (by omega), if_pos ⟨hc, hl⟩]

theorem checksSixSeven_passed (hf : 3 ≤ s.ju.free)
    (hc : isBC f.cls = false ∨ 64 ≤ s.ju.free ∧ s.su.loss = false) : checksSixSeven f s = none := by
  unfold checksSixSeven
  rw [if_neg (by omega), if_neg]
  rintro ⟨bc, low⟩
  rcases hc with a | ⟨many, noLoss⟩
  · simp [a] at bc
  · rcases low with few | loss
    · omega
    · simp [noLoss] at loss

theorem afterKey_refused {x : RefusalReason} (hf : (s.au.session.get h).fixed = some f)
    (hc : checksSixSeven f s = some x) : afterKey h s = refuse h x s := by
  unfold afterKey
  rw [hf]
  dsimp only
  rw [hc]

theorem afterKey_passed (hf : (s.au.session.get h).fixed = some f) (hc : checksSixSeven f s = none) :
    afterKey h s = queryDecision h f s := by
  unfold afterKey
  rw [hf]
  dsimp only
  rw [hc]

theorem queryDecision_notJoined (hl : s.lc.link ≠ .joined) : queryDecision h f s = grantBlind h true s := if_neg hl

theorem queryDecision_fresh (hl : s.lc.link = .joined) (hf : (s.au.session.get h).fresh = true) :
    queryDecision h f s = grantBlind h false s := by
  unfold queryDecision
  rw [if_pos hl, if_pos hf]

/-- A placed frame leaves the clock and the machine table. -/
theorem placeFrame_eq (x : TxFrame) (s : State) : placeFrame x s = { s with
    draws := (placeFrame x s).draws, lc := (placeFrame x s).lc } := by
  unfold placeFrame
  dsimp only
  rw [lcKick_eq]

theorem placeFrame_now (x : TxFrame) (s : State) : (placeFrame x s).now = s.now := by rw [placeFrame_eq]

/-- A query asked for with room in the queue and no wait running. -/
theorem queryRequest_started {m : Nat} {e : Entry} {g : FixedPart} (hl : s.lc.link = .joined) (hw : s.warned = false)
    (hn : s.mt.wait.get h = .none) (hq : s.lc.queue.length < 16) (he : s.mt.find m = some e) (hg : e.fixed = some g) :
    queryRequest h m s = (.started, setWait h (.sending m s.mt.serial s.now)
      (placeFrame { cls := 2, owner := .query h s.mt.serial,
                    bytes := frameBytes (wholeHeader (stationId s))
                      (.query (BitVec.ofNat 24 m) (BitVec.ofNat 8 g.window)) }
        { s with mt := { s.mt with serial := s.mt.serial + 1 } })) := by
  have window : queryWindow m s = g.window := by simp [queryWindow, he, hg]
  unfold queryRequest
  rw [hn]
  dsimp only [QueryWait.machine?]
  unfold startQuery
  rw [if_neg (by simp [hl])]
  dsimp only
  rw [window, enqueueFrame_placed (lcTakes_of_joined (by exact hw) (.inl (by exact hl))) (by exact hq)]
  dsimp only
  rw [placeFrame_now]
  rfl

end Checks

/-- Settles O47: the READ's end, the checks in their order, and the query decision. -/
theorem sessionsGoFromTheTagToTheGrant : Obligations.SessionsGoFromTheTagToTheGrant := by
  refine ⟨fun s h ok num fixed f1 f2 r hp ha hb hq hs hr hv => ?_, fun s h r u v hu hv => ⟨fun hf => ?_, fun hf => ?_⟩,
    fun s h f hf => ⟨fun hfree => ?_, fun hfree hc hl => ?_, fun hfree hc => ⟨fun hl => ?_, fun hl hfresh => ?_,
      fun e g hl hfresh hw hn hq he hg => ?_⟩⟩⟩
  · rw [exec_headAnswer_accepted hp ha, takeAnswer_done_read2 hb hq hs hr hv]
  · rw [takeTag_invalid hf, hu]
  · have checked := takeTag_checked (s := s) (h := h) hf
    have identified : identification h r (s.updSession h (fun se =>
        { se with fixed := some r.fixed, nextRead := none })) = v := by rw [hv, hu]; rfl
    have cfg : v.cfg = s.cfg := by rw [hv, hu]; rfl
    have sc : v.sc = s.sc := by rw [hv, hu]; rfl
    have pp : v.pp = s.pp := by rw [hv, hu]; rfl
    have now : v.now = s.now := by rw [hv, hu]; rfl
    rw [identified] at checked
    dsimp only at checked
    refine ⟨fun hc => ?_, fun hc hfault => ?_, fun hc hfault => ⟨fun hprod => ?_, fun hprod => ⟨fun hi => ?_,
      fun hi => ?_⟩⟩⟩
    · rw [checked, checksOneFour_notConfigured (by rw [cfg]; exact hc)]
    · rw [checked, checksOneFour_fault (by rw [cfg]; exact hc) (by rw [sc]; exact hfault)]
    · rw [checked, checksOneFour_product (by rw [cfg]; exact hc) (by rw [sc]; exact hfault) (by rw [cfg]; exact hprod)]
    · rw [checked, checksOneFour_ident (by rw [cfg]; exact hc) (by rw [sc]; exact hfault) (by rw [cfg]; exact hprod), hi]
      rfl
    · rw [checksOneFour_ident (by rw [cfg]; exact hc) (by rw [sc]; exact hfault) (by rw [cfg]; exact hprod), hi] at checked
      refine ⟨fun hk hn => ?_, fun hk => ?_⟩
      · refine checked.trans ((checkKey_waits hk (by rw [pp]; exact hn)).trans ?_)
        rw [now]
      · exact checked.trans (checkKey_goesOn (by rw [pp]; exact hk))
  · exact afterKey_refused hf (checksSixSeven_full hfree)
  · exact afterKey_refused hf (checksSixSeven_class hfree hc hl)
  · rw [afterKey_passed hf (checksSixSeven_passed hfree hc), queryDecision_notJoined hl]
  · rw [afterKey_passed hf (checksSixSeven_passed hfree hc), queryDecision_fresh hl hfresh]
  · rw [afterKey_passed hf (checksSixSeven_passed hfree hc), queryDecision, if_pos hl, if_neg (by simp [hfresh]),
      queryRequest_started hl hw hn hq he hg]

/-! ### The limit (R75, R76) -/

/-- Folding a list of terms finds the first of the smallest. -/
theorem foldl_smallerTerm (x : Binding × Nat) (rest : List (Binding × Nat)) :
    ∃ front back, x :: rest = front ++ rest.foldl smallerTerm x :: back ∧
      (∀ y ∈ front, (rest.foldl smallerTerm x).2 < y.2) ∧ (∀ y ∈ back, (rest.foldl smallerTerm x).2 ≤ y.2) := by
  induction rest generalizing x with
  | nil => exact ⟨[], [], rfl, by simp, by simp⟩
  | cons y rest ih =>
    rw [List.foldl_cons]
    by_cases hy : y.2 < x.2
    · have next : smallerTerm x y = y := if_pos hy
      obtain ⟨front, back, split, before, behind⟩ := ih y
      rw [next]
      have bound : (rest.foldl smallerTerm y).2 ≤ y.2 := by
        have mem : y ∈ front ++ rest.foldl smallerTerm y :: back := by rw [← split]; exact List.mem_cons_self
        rcases List.mem_append.1 mem with m | m
        · exact Nat.le_of_lt (before y m)
        · rcases List.mem_cons.1 m with e | m
          · rw [← e]
          · exact behind y m
      refine ⟨x :: front, back, by rw [split]; rfl, fun z hz => ?_, behind⟩
      rcases List.mem_cons.1 hz with rfl | hz
      · omega
      · exact before z hz
    · have next : smallerTerm x y = x := if_neg hy
      obtain ⟨front, back, split, before, behind⟩ := ih x
      rw [next]
      cases front with
      | nil =>
        obtain ⟨first, rfl⟩ := List.cons.inj split
        refine ⟨[], y :: rest, by rw [← first]; rfl, by simp, fun z hz => ?_⟩
        rcases List.mem_cons.1 hz with rfl | hz
        · rw [← first]
          omega
        · exact behind z hz
      | cons w front =>
        obtain ⟨rfl, tail⟩ := List.cons.inj split
        refine ⟨x :: y :: front, back, congrArg (fun l => x :: y :: l) tail, fun z hz => ?_, behind⟩
        have least := before x List.mem_cons_self
        rcases List.mem_cons.1 hz with rfl | hz
        · exact least
        · rcases List.mem_cons.1 hz with rfl | hz
          · omega
          · exact before z (List.mem_cons_of_mem _ hz)

/-- The chosen limit divides the terms: greater ones before it, none smaller behind it. -/
theorem chooseLimit_split (preset : Option Nat) (t : Terms) : ∃ front back,
    termList preset t = front ++ chooseLimit preset t :: back ∧
      (∀ y ∈ front, (chooseLimit preset t).2 < y.2) ∧ (∀ y ∈ back, (chooseLimit preset t).2 ≤ y.2) := by
  have terms : ∃ x rest, termList preset t = x :: rest := by cases preset <;> exact ⟨_, _, rfl⟩
  obtain ⟨x, rest, terms⟩ := terms
  have chosen : chooseLimit preset t = rest.foldl smallerTerm x := by
    unfold chooseLimit
    rw [terms]
  rw [terms, chosen]
  exact foldl_smallerTerm x rest

end Sys2Proof.Machine

/-! The grant, and the pump's answer to it (sections 4.4 and 6.7). -/

namespace Sys2Proof.Machine

/-! ### The pump joined (R109, R125) -/

/-- What the pump changes of a hose: its stage, joined, and the timers that start with it. -/
def Joins (x y : Hc) : Prop := ∃ (stage : Stage) (joined : Bool) (noFlowAt idleAt : Option Nat),
  y = { x with stage := stage, joined := joined, noFlowAt := noFlowAt, idleAt := idleAt }

theorem Joins.refl (x : Hc) : Joins x x := ⟨x.stage, x.joined, x.noFlowAt, x.idleAt, rfl⟩

theorem Joins.trans {x y z : Hc} (h1 : Joins x y) (h2 : Joins y z) : Joins x z := by
  obtain ⟨_, _, _, _, rfl⟩ := h1
  obtain ⟨stage, joined, noFlowAt, idleAt, rfl⟩ := h2
  exact ⟨stage, joined, noFlowAt, idleAt, rfl⟩

/-- A state that the pump's answers have made: hoses have joined, and the pump has changed. -/
def JoinsAll (s t : State) : Prop :=
  t = { s with hc := t.hc, pump := t.pump } ∧ ∀ k, Joins (s.hc.get k) (t.hc.get k)

namespace JoinsAll

theorem refl (s : State) : JoinsAll s s := ⟨rfl, fun _ => Joins.refl _⟩

theorem trans {s t u : State} (h1 : JoinsAll s t) (h2 : JoinsAll t u) : JoinsAll s u := by
  obtain ⟨e1, j1⟩ := h1
  obtain ⟨e2, j2⟩ := h2
  refine ⟨?_, fun k => (j1 k).trans (j2 k)⟩
  have outside := congrArg (fun x : State => { x with hc := u.hc, pump := u.pump }) e1
  exact e2.trans outside

theorem pump (s : State) (p : Pump) : JoinsAll s { s with pump := p } := ⟨rfl, fun _ => Joins.refl _⟩

/-- A change of one hose that joins. -/
theorem set {s : State} {h : Hose} {y : Hc} (hy : Joins (s.hc.get h) y) :
    JoinsAll s { s with hc := s.hc.set h y } := by
  refine ⟨rfl, fun k => ?_⟩
  by_cases hk : k = h
  · subst hk
    simpa using hy
  · simp only [Two.get_set_of_ne _ _ hk]
    exact Joins.refl _

end JoinsAll

/-- The stage that opens is SLOW or FULL. -/
theorem openStage_eq (h : Hose) (s : State) : ∃ x : Stage, x ≠ .closed ∧
    openStage h s = { s with hc := s.hc.set h { s.hc.get h with stage := x } } := by
  refine ⟨_, ?_, rfl⟩
  split <;> simp

/-- A hose outside a prove joins with its no-flow timer running. -/
theorem joinPump_eq {h : Hose} {s : State} (hs : (s.hc.get h).state ≠ .proving) : ∃ x : Stage, x ≠ .closed ∧
    joinPump h s = { s with hc := s.hc.set h { s.hc.get h with
      joined := true, noFlowAt := some (s.now + sec 60), stage := x } } := by
  unfold joinPump
  obtain ⟨x, opens, staged⟩ := openStage_eq h (s.updHc h (fun hc =>
    if hc.state = .proving then { hc with joined := true, idleAt := some (s.now + sec 60) }
    else { hc with joined := true, noFlowAt := some (s.now + sec 60) }))
  refine ⟨x, opens, ?_⟩
  dsimp only
  rw [staged]
  simp only [State.updHc, Two.get_set_self, Two.set_set, if_neg hs]

theorem joinPump_joinsAll (h : Hose) (s : State) : JoinsAll s (joinPump h s) := by
  unfold joinPump
  dsimp only
  obtain ⟨x, -, staged⟩ := openStage_eq h (s.updHc h (fun hc =>
    if hc.state = .proving then { hc with joined := true, idleAt := some (s.now + sec 60) }
    else { hc with joined := true, noFlowAt := some (s.now + sec 60) }))
  rw [staged]
  refine JoinsAll.trans (JoinsAll.set (h := h) ?_) (JoinsAll.set (h := h) ⟨x, _, _, _, rfl⟩)
  dsimp only
  split <;> exact ⟨_, _, _, _, rfl⟩

theorem joinHeld_joinsAll (s : State) : JoinsAll s (joinHeld s) := by
  unfold joinHeld
  dsimp only
  have first : JoinsAll s (if s.pump.waiting.a = true
      then joinPump .a { s with pump := { s.pump with waiting := Two.both false } }
      else { s with pump := { s.pump with waiting := Two.both false } }) := by
    split
    · exact (JoinsAll.pump s _).trans (joinPump_joinsAll .a _)
    · exact JoinsAll.pump s _
  split
  · exact first.trans (joinPump_joinsAll .b _)
  · exact first

theorem pumpRequest_joinsAll (h : Hose) (s : State) : JoinsAll s (pumpRequest h s) := by
  unfold pumpRequest
  split
  · exact JoinsAll.refl s
  · split
    · exact (joinPump_joinsAll h s).trans (joinHeld_joinsAll _)
    · exact (JoinsAll.pump s _).trans ((joinPump_joinsAll h _).trans (joinHeld_joinsAll _))
    · split
      · exact (JoinsAll.pump s _).trans ((joinPump_joinsAll h _).trans (joinHeld_joinsAll _))
      · exact JoinsAll.pump s _

theorem joinHeld_of_none {s : State} (hw : s.pump.waiting = Two.both false) : joinHeld s = s := by
  have a : s.pump.waiting.a = false := congrArg Two.a hw
  have b : s.pump.waiting.b = false := congrArg Two.b hw
  unfold joinHeld
  dsimp only
  rw [if_neg (by simp [b]), if_neg (by simp [a]), ← hw]

section PumpRequest
variable {s : State} {h : Hose}

theorem pumpRequest_running (hw : s.warned = false) (hp : s.pump.state = .running)
    (hn : s.pump.waiting = Two.both false) (hs : (s.hc.get h).state ≠ .proving) : pumpRequest h s = joinPump h s := by
  obtain ⟨x, -, joined⟩ := joinPump_eq hs
  unfold pumpRequest
  rw [if_neg (by simp [hw]), hp]
  dsimp only
  rw [joinHeld_of_none (by rw [joined]; exact hn)]

theorem pumpRequest_stopped (hw : s.warned = false) (hp : s.pump.state = .stopped) (hl : s.pump.level < 6)
    (hn : s.pump.waiting = Two.both false) (hs : (s.hc.get h).state ≠ .proving) :
    pumpRequest h s = joinPump h (startPump s) := by
  obtain ⟨x, -, joined⟩ := joinPump_eq (s := startPump s) (h := h) hs
  unfold pumpRequest
  rw [if_neg (by simp [hw]), hp]
  dsimp only
  rw [if_pos hl, joinHeld_of_none (by rw [joined]; exact hn)]

theorem pumpRequest_held (hw : s.warned = false) (hp : s.pump.state = .stopped) (hl : s.pump.level = 6) :
    pumpRequest h s = { s with pump := { s.pump with waiting := s.pump.waiting.set h true } } := by
  unfold pumpRequest
  rw [if_neg (by simp [hw]), hp]
  dsimp only
  rw [if_neg (by omega)]

end PumpRequest

/-! ### To the grant (R74 to R77) -/

section ToGrant
variable {s : State} {h : Hose} {f : FixedPart}

theorem checksAtGrant_fault (hs : s.sc.fault = true) : checksAtGrant f s = some .storeFault := if_pos hs

theorem checksAtGrant_noFault (hs : s.sc.fault = false) : checksAtGrant f s = checksSixSeven f s :=
  if_neg (by simp [hs])

theorem toGrant_refused {x : RefusalReason} (hf : (s.au.session.get h).fixed = some f)
    (hc : checksAtGrant f s = some x) : toGrant h s = refuse h x s := by
  unfold toGrant
  rw [hf]
  dsimp only
  rw [hc]

/-- The checks passed, the limit decides. -/
theorem toGrant_passed {u : State} {t : Terms} {best : Binding × Nat} (hf : (s.au.session.get h).fixed = some f)
    (hc : checksAtGrant f s = none) (hu : u = ageEntry f.machine s)
    (ht : t = termsAtGrant f (s.au.session.get h).blind u) (hb : best = chooseLimit (s.au.preset.get h) t) :
    toGrant h s = if best.2 < 200 then refuse h (belowMinimum best.1) u else grantSession h f t best u := by
  subst hu ht hb
  unfold toGrant
  rw [hf]
  dsimp only
  rw [hc]
  rfl

theorem belowMinimum_eq (b : Binding) : belowMinimum b
    = if b = .allowance then .noAllowance else if b = .stock then .noStock else .classRestricted := by
  cases b <;> rfl

end ToGrant

/-! ### The grant (R77, R108) -/

/-- The record that a grant asks for. -/
def grantRecord (h : Hose) (f : FixedPart) (best : Binding × Nat) (s : State) : DispenseRec :=
  newDispense h f (s.pp.pendingOp.get h) best.2 best.1 (s.au.session.get h).blind
    (priceLookup s.pbu.banks f.costCentre)

/-- The state in which the granted hose asks for the pump. -/
def granted (h : Hose) (f : FixedPart) (terms : Terms) (best : Binding × Nat) (s : State) : State :=
  { takePending h s with
    au := { (takePending h s).au with session := s.au.session.set h { s.au.session.get h with
      terms := some terms, presetTerm := s.au.preset.get h } },
    ju := { s.ju with slots := s.ju.slots.set h (some (.reserved (grantRecord h f best s))) },
    hc := s.hc.set h { (s.hc.get h).discard with
      state := .authorised, limit := some best.2, binding := some best.1, machine := some f.machine,
      valveAlarm := false, shown := .nothing, proveShown := none, allowanceShown := some terms.allowance,
      factorNotStored := false },
    mu := s.mu.set h { s.mu.get h with dispense := some ((s.mu.get h).opening false) } }

/-- A grant with a free slot, no record and no dispense open. -/
theorem grantSession_eq {h : Hose} {f : FixedPart} {terms : Terms} {best : Binding × Nat} {s : State}
    (hslot : s.ju.slots.get h = none) (hfree : 0 < s.ju.free) (hd : (s.mu.get h).dispense = none) :
    grantSession h f terms best s = pumpRequest h (granted h f terms best s) := by
  have opened : openRecord (grantRecord h f best s) ((takePending h s).updSession h (fun se =>
      { se with terms := some terms, presetTerm := s.au.preset.get h })) = { (takePending h s).updSession h (fun se =>
      { se with terms := some terms, presetTerm := s.au.preset.get h }) with
        ju := { s.ju with slots := s.ju.slots.set h (some (.reserved (grantRecord h f best s))) } } := by
    refine if_neg ?_
    rintro (taken | full)
    · simp [State.updSession, takePending, grantRecord, newDispense, hslot] at taken
    · exact absurd full (Nat.ne_of_gt hfree)
  have meter : muOpen h false { (takePending h s).updSession h (fun se =>
      { se with terms := some terms, presetTerm := s.au.preset.get h }) with
        ju := { s.ju with slots := s.ju.slots.set h (some (.reserved (grantRecord h f best s))) },
        hc := s.hc.set h { (s.hc.get h).discard with
          state := .authorised, limit := some best.2, binding := some best.1, machine := some f.machine,
          valveAlarm := false, shown := .nothing, proveShown := none, allowanceShown := some terms.allowance,
          factorNotStored := false } } = granted h f terms best s := by
    unfold muOpen State.updMu
    dsimp only
    rw [show (((takePending h s).updSession h _).mu.get h).dispense = none from hd]
    rfl
  unfold grantSession
  dsimp only
  rw [show newDispense h f (s.pp.pendingOp.get h) best.2 best.1 (s.au.session.get h).blind
    (priceLookup ((takePending h s).updSession h _).pbu.banks f.costCentre) = grantRecord h f best s from rfl, opened]
  unfold grantHose
  dsimp only
  rw [← meter]
  rfl

/-- Settles O48: the fold of the terms, the checks and the limit, and the grant up to the pump's answer. -/
theorem limitIsTheSmallestTerm : Obligations.LimitIsTheSmallestTerm := by
  refine ⟨fun preset t => ?_, fun s u h f t best hf hu ht hb => ⟨fun hs => ?_, fun hs hfree => ?_,
    fun hs hfree hc hl => ?_, fun hs hfree hc => ?_⟩, fun s t h f terms best ht hslot hfree hd => ?_⟩
  · obtain ⟨front, back, split, before, behind⟩ := chooseLimit_split preset t
    refine ⟨by rw [split]; simp, fun x hx => ?_, front, back, split, before⟩
    rw [split] at hx
    rcases List.mem_append.1 hx with hx | hx
    · exact Nat.le_of_lt (before x hx)
    · rcases List.mem_cons.1 hx with rfl | hx
      · exact Nat.le_refl _
      · exact behind x hx
  · exact toGrant_refused hf (checksAtGrant_fault hs)
  · exact toGrant_refused hf ((checksAtGrant_noFault hs).trans (checksSixSeven_full hfree))
  · exact toGrant_refused hf ((checksAtGrant_noFault hs).trans (checksSixSeven_class hfree hc hl))
  · have decided := toGrant_passed (u := u) (t := t) (best := best) hf
      ((checksAtGrant_noFault hs).trans (checksSixSeven_passed hfree hc)) hu (by rw [ht, hu]; rfl) hb
    refine ⟨fun low => ?_, fun enough => ?_⟩
    · rw [decided, if_pos low, belowMinimum_eq]
    · rw [decided, if_neg (by omega)]
  · rw [grantSession_eq hslot hfree hd] at ht
    have state : ((granted h f terms best s).hc.get h).state ≠ .proving := by simp [granted]
    obtain ⟨outside, joins⟩ := pumpRequest_joinsAll h (granted h f terms best s)
    obtain ⟨stage, joined, noFlowAt, idleAt, hose⟩ := joins h
    rw [← ht] at outside hose
    have hc : (granted h f terms best s).hc.get h = _ := Two.get_set_self _ _ _
    rw [hc] at hose
    refine ⟨by rw [hose], by rw [hose], by rw [hose], by rw [hose], by rw [hose], ?_, ?_, ?_, ?_, ?_,
      ⟨_, _, _, rfl, ?_⟩, fun hw hp hn => ?_, fun hw hp hl hn => ?_, fun hw hp hl => ?_⟩
    · rw [outside]; exact Two.get_set_self _ _ _
    · rw [outside]; exact Two.get_set_self _ _ _
    · rw [outside]; exact congrArg Session.terms (Two.get_set_self _ _ _)
    · rw [outside]; exact congrArg Session.presetTerm (Two.get_set_self _ _ _)
    · rw [outside]; exact congrArg Mu.dispense (Two.get_set_self _ _ _)
    · rw [outside]; exact Two.get_set_self _ _ _
    · obtain ⟨x, opens, pumped⟩ := joinPump_eq state
      rw [pumpRequest_running (by exact hw) (by exact hp) (by exact hn) state, pumped] at ht
      rw [ht]
      simp only [Two.get_set_self]
      exact ⟨trivial, opens, rfl⟩
    · obtain ⟨x, opens, pumped⟩ := joinPump_eq (s := startPump (granted h f terms best s)) (h := h) state
      rw [pumpRequest_stopped (by exact hw) (by exact hp) (by exact hl) (by exact hn) state, pumped] at ht
      rw [ht]
      simp only [Two.get_set_self]
      exact ⟨trivial, opens, rfl, rfl, rfl⟩
    · rw [pumpRequest_held (by exact hw) (by exact hp) (by exact hl)] at ht
      rw [ht]
      exact ⟨congrArg Hc.joined (Two.get_set_self _ _ _), Two.get_set_self _ _ _⟩

end Sys2Proof.Machine

/-! The ends of a flow by STOP, hang, idle time and lost tags (sections 6.2, 6.4 and 6.5). -/

namespace Sys2Proof.Machine

/-! ### The causes reach the hose (R106, R114 to R116) -/

section Causes
variable {s : State} {h : Hose} {num : Byte}

theorem exec_stop (ht : Takes s num) : exec (.stop num) s = .next (stopKey (taken num s)) :=
  exec_message_taken .stop rfl ht

theorem stopKey_ends (hs : (s.hc.get s.pp.selected).state = .authorised ∨ (s.hc.get s.pp.selected).state = .flowing) :
    stopKey s = hoseEnd s.pp.selected .operatorStop s := by
  unfold stopKey
  rcases hs with hs | hs <;> simp only [hs]

theorem stopKey_prove (hs : (s.hc.get s.pp.selected).state = .proving) (hf : proveFlows s.pp.selected s = true) :
    stopKey s = hoseEnd s.pp.selected .operatorStop s := by
  unfold stopKey
  simp only [hs, hf, if_true]

theorem proveFlows_eq_false (hf : (s.hc.get h).state ≠ .proving ∨ s.prove.phase ≠ .run ∨
    (s.hc.get h).endCause.isSome = true) : proveFlows h s = false := by
  unfold proveFlows
  rcases hf with hf | hf | hf
  · simp [hf]
  · simp [hf]
  · simp [Option.isSome_iff_ne_none.1 hf]

theorem stopKey_nothing (ha : (s.hc.get s.pp.selected).state ≠ .authorised)
    (hf : (s.hc.get s.pp.selected).state ≠ .flowing) (hp : proveFlows s.pp.selected s = false) :
    stopKey s = prompt .nothingToStop s := by
  unfold stopKey
  cases hs : (s.hc.get s.pp.selected).state <;> simp_all

theorem exec_nozzleHang (hp : s.power = .released) (hn : (s.hc.get h).nozzleOut = true) :
    exec (.nozzleHang h) s = .next (hung h s) :=
  (if_pos hp : exec (.nozzleHang h) s = _).trans (congrArg Host.Outcome.next (if_pos hn))

/-- The hose's part of a hang, whatever follows. -/
def hangs (h : Hose) (s : State) : State := s.updHc h (fun hc =>
  { hc with nozzleOut := false, shown := .nothing, proveShown := none, factorNotStored := false })

theorem hung_ends (hs : (s.hc.get h).state = .authorised ∨ (s.hc.get h).state = .flowing ∨
    (s.hc.get h).state = .proving) : hung h s = hoseEnd h .nozzleHung (hangs h s) := by
  unfold hung
  rcases hs with hs | hs | hs <;> rw [hs] <;> rfl

theorem hung_session (hs : (s.hc.get h).state = .identifying ∨ (s.hc.get h).state = .awaitKey ∨
    (s.hc.get h).state = .querying) : hung h s = endSession h (hangs h s) := by
  unfold hung
  rcases hs with hs | hs | hs <;> rw [hs] <;> rfl

theorem hung_closing (hs : (s.hc.get h).state = .stopping ∨ (s.hc.get h).state = .writing) :
    hung h s = (hangs h s).updHc h (fun hc => { hc with hungSinceEnd := true }) := by
  unfold hung
  rcases hs with hs | hs <;> rw [hs] <;> rfl

theorem hung_waiting (hs : (s.hc.get h).state = .hangWait) :
    hung h s = (hangs h s).updHc h (fun hc => { hc with state := .idle }) := by
  unfold hung
  rw [hs]
  rfl

theorem exec_idleTimer {d : Nat} (hp : s.power = .released) (hd : (s.hc.get h).idleAt = some d) :
    exec (.idleTimer h) s = .next (hoseEnd h .idleTimeout (s.reach d)) :=
  live_atDue (due := fun s => (s.hc.get h).idleAt) hp hd

/-- A prove whose flow does not run hears no cause. -/
theorem hoseEnd_prove_ended {c : EndCause} (hs : (s.hc.get h).state = .proving) (hf : proveFlows h s = false) :
    hoseEnd h c s = s := by
  unfold hoseEnd
  rw [hs]
  exact if_neg (by simp [hf])

/-- HC's PROBE that finds no tag. -/
theorem takeAnswer_absent_probing (hb : (s.tiu.get h).busy = .probing) (hr : (s.tiu.get h).requester = some .hc) :
    takeAnswer h .absent s = probeReport h (s.updTiu h (fun x => x.finish (.tagError .noTag))) := by
  simp [takeAnswer, finishTag, hr, hb]

theorem probeReport_flowing (hs : (s.hc.get h).state = .flowing) : probeReport h s =
    (let s1 := s.updHc h (fun x => { x with tagNotSeen := decide ((s.tiu.get h).misses ≠ 0) })
     if (s.tiu.get h).misses = 3 then hoseEnd h .tagLost s1 else s1) := if_pos hs

/-- In FLOWING it counts a miss and shows "tag not seen"; the third in a row is a cause of the end. -/
theorem takeAnswer_absent_flowing (hb : (s.tiu.get h).busy = .probing) (hr : (s.tiu.get h).requester = some .hc)
    (hs : (s.hc.get h).state = .flowing) : takeAnswer h .absent s =
      (let u := { s with
         tiu := s.tiu.set h { s.tiu.get h with
           busy := .idle, requester := none, waiting := none, code := some (.tagError .noTag), present := false,
           misses := satInc 255 (s.tiu.get h).misses },
         hc := s.hc.set h { s.hc.get h with tagNotSeen := true } }
       if (s.tiu.get h).misses = 2 then hoseEnd h .tagLost u else u) := by
  have finished : (s.tiu.get h).finish (.tagError .noTag) = { s.tiu.get h with
      busy := .idle, requester := none, waiting := none, code := some (.tagError .noTag), present := false,
      misses := satInc 255 (s.tiu.get h).misses } := by
    simp [Tiu.finish, presenceAfter, missesAfter, hb]
  have some' : satInc 255 (s.tiu.get h).misses ≠ 0 := by unfold satInc; split <;> omega
  have third : satInc 255 (s.tiu.get h).misses = 3 ↔ (s.tiu.get h).misses = 2 := by unfold satInc; split <;> omega
  rw [takeAnswer_absent_probing hb hr, probeReport_flowing (by exact hs)]
  simp only [State.updTiu, State.updHc, Two.get_set_self, finished, third, decide_eq_true some']

end Causes

/-! ### The end of a flow with its record numbered -/

section Flow
variable {s : State} {h : Hose} {n : Nat} {c : EndCause}

theorem endFlow_numbered (hn : s.ju.slots.get h = some (.numbered n)) : endFlow h c s = { s with
    hc := s.hc.set h { (s.hc.get h).ends c with
      state := .stopping, drainAt := some (s.now + sec 3), drainLimitAt := some (s.now + sec 30) },
    ju := s.ju.upd n (fun r => r.updDispense (fun d => { d with stopNotice := true })) } := by
  unfold endFlow
  rw [updOpenDispense_numbered (by exact hn)]
  rfl

/-- A cause at a hose in FLOWING whose nozzle is out. -/
theorem hoseEnd_flowing_out (hn : s.ju.slots.get h = some (.numbered n)) (hs : (s.hc.get h).state = .flowing)
    (ho : (s.hc.get h).nozzleOut = true) : hoseEnd h c s = { s with
      hc := s.hc.set h { s.hc.get h with
        state := .stopping, stage := .closed, endCause := some c, hungSinceEnd := decide (c = .nozzleHung),
        noFlowAt := none, idleAt := none, probeAt := none, shown := .ended c,
        drainAt := some (s.now + sec 3), drainLimitAt := some (s.now + sec 30) },
      ju := s.ju.upd n (fun r => r.updDispense (fun d => { d with stopNotice := true })) } := by
  rw [hoseEnd_flowing hs, endFlow_numbered hn]
  simp only [Hc.ends, Hc.show, ho, if_true]

end Flow

theorem releaseHeld_of_not_held {s : State} {h : Hose} (hi : (s.au.session.get h).ident ≠ some .held) :
    releaseHeld h s = s := by
  unfold releaseHeld
  split
  · next held _ => exact absurd held hi
  · rfl

/-- A session that a hang ends, its machine held or not. -/
theorem hung_endsSession {s : State} {h : Hose} (hs : (s.hc.get h).state = .identifying ∨
    (s.hc.get h).state = .awaitKey ∨ (s.hc.get h).state = .querying) : hung h s = { s with
      hc := s.hc.set h { s.hc.get h with
        nozzleOut := false, shown := .nothing, proveShown := none, factorNotStored := false, state := .idle },
      au := { s.au with session := s.au.session.set h (Session.empty (s.au.session.get h).serial) },
      mt := (releaseHeld h (cancelWait h (hangs h s))).mt } := by
  have session : endSession h (hangs h s) = sessionNone h ((releaseHeld h (cancelWait h (hangs h s))).updHc h
      (fun hc => { hc with state := restState hc.nozzleOut })) := by
    have state : ((hangs h s).hc.get h).state = (s.hc.get h).state := by simp [hangs, State.updHc]
    unfold endSession
    rcases hs with hs | hs | hs <;> rw [state, hs]
  rw [hung_session hs, session, releaseHeld_eq]
  simp only [sessionNone, State.updSession, State.updHc, cancelWait, setWait, hangs, Two.get_set_self, Two.set_set,
    restState, if_neg Bool.false_ne_true]

/-- Settles O49: each cause to `hoseEnd`, or to the hang's own cases. -/
theorem flowEndsByStopHangAndIdleTime : Obligations.FlowEndsByStopHangAndIdleTime := by
  intro s h num
  refine ⟨fun n hn hs ho => ⟨fun ht hsel => ?_, fun hp => ?_, fun d hp hd => ?_, fun ok hp ha hb hr =>
      ⟨fun hm => ?_, fun hm => ?_⟩⟩,
    fun hs hrun hend => ⟨fun ht hsel => ?_, fun hp ho => ?_, fun d hp hd => ?_⟩,
    fun hp ho => ⟨fun hs => ?_, fun hs => ?_, fun hs hf => ?_, fun hs => ⟨fun hi => ?_, fun f hi hf => ?_⟩⟩,
    fun ht hsel ha hflow hprove => ?_⟩
  · subst hsel
    rw [exec_stop ht, stopKey_ends (.inr (by exact hs)), hoseEnd_flowing_out (n := n) (by exact hn) (by exact hs) (by exact ho)]
    rfl
  · rw [exec_nozzleHang hp ho, hung_ends (.inr (.inl hs)), hoseEnd_flowing (by simpa [hangs, State.updHc] using hs),
      endFlow_numbered (n := n) (by exact hn)]
    simp [hangs, State.updHc, Hc.ends, Hc.show]
  · rw [exec_idleTimer hp hd, hoseEnd_flowing_out (n := n) (by exact hn) (by exact hs) (by exact ho)]
    rfl
  · rw [exec_headAnswer_accepted hp ha, takeAnswer_absent_flowing hb hr hs]
    exact congrArg Host.Outcome.next (if_neg (by omega))
  · rw [exec_headAnswer_accepted hp ha, takeAnswer_absent_flowing hb hr hs]
    dsimp only
    rw [if_pos hm, hoseEnd_flowing_out (n := n) (by exact hn) (by simpa using hs) (by simpa using ho)]
    simp
  · subst hsel
    have flows : proveFlows s.pp.selected s = true := by simp [proveFlows, hs, hrun, hend]
    rw [exec_stop ht, stopKey_prove (by exact hs) (by exact flows), hoseEnd_prove (by exact hs) (by exact hrun)
      (by exact hend)]
    rfl
  · rw [exec_nozzleHang hp ho, hung_ends (.inr (.inr hs)), hoseEnd_prove (by simpa [hangs, State.updHc] using hs)
      (by exact hrun) (by simpa [hangs, State.updHc] using hend)]
    simp [endProveRun, leaveWaiting, hangs, State.updHc]
  · rw [exec_idleTimer hp hd, hoseEnd_prove (by exact hs) (by exact hrun) (by exact hend)]
    rfl
  · rw [exec_nozzleHang hp ho, hung_waiting hs]
    simp [hangs, State.updHc]
  · rw [exec_nozzleHang hp ho, hung_closing hs]
    simp [hangs, State.updHc]
  · rw [exec_nozzleHang hp ho, hung_ends (.inr (.inr hs)), hoseEnd_prove_ended (by simpa [hangs, State.updHc] using hs)
      (proveFlows_eq_false (.inr (by simpa [hangs, State.updHc] using hf)))]
    rfl
  · rw [exec_nozzleHang hp ho, hung_endsSession hs, releaseHeld_of_not_held (by exact hi)]
    rfl
  · rw [exec_nozzleHang hp ho, hung_endsSession hs, releaseHeld_held (by exact hi) (by exact hf)]
    rfl
  · subst hsel
    exact (exec_stop ht).trans (congrArg Host.Outcome.next (stopKey_nothing ha hflow (proveFlows_eq_false hprove)))

end Sys2Proof.Machine

/-! The close of a dispense, and an authorisation that ends without flow (sections 6.5 and 6.6). -/

namespace Sys2Proof.Machine

/-! ### What is asked to be written is written or waits (R152) -/

/-- An entry on JU's write list that a kick of SC does not leave there is the one being written. -/
theorem scKick_writes {e : WriteEntry} {s : State} (he : e ∈ s.ju.writeList) :
    e ∈ (scKick s).ju.writeList ∨ (scKick s).ju.writing.map Prod.fst = some e := by
  unfold scKick
  split
  · dsimp only
    split
    · unfold juPerform
      cases hl : s.ju.writeList with
      | nil => rw [hl] at he; cases he
      | cons x rest =>
        rw [hl] at he
        cases x <;>
        · rcases List.mem_cons.1 he with rfl | he
          · exact .inr rfl
          · exact .inl he
    · exact .inl he
  · exact .inl he

theorem askJournal_writes {e : WriteEntry} {s : State} (he : e ∈ s.ju.writeList) :
    e ∈ (askJournal s).ju.writeList ∨ (askJournal s).ju.writing.map Prod.fst = some e := by
  unfold askJournal scAsk
  split
  · exact .inl he
  · split
    · exact .inl he
    · exact scKick_writes (by exact he)

theorem writeListAdd_writes (e : WriteEntry) (s : State) :
    e ∈ (writeListAdd e s).ju.writeList ∨ (writeListAdd e s).ju.writing.map Prod.fst = some e := by
  refine askJournal_writes ?_
  dsimp only
  split
  · next h => simpa using h
  · simp

/-- An entry put on the write list changes the requests for writes and JU's list alone. -/
theorem writeListAdd_frame (e : WriteEntry) (s : State) : ∃ queue current writeList writing,
    writeListAdd e s = { s with
      sc := { s.sc with queue := queue, current := current },
      ju := { s.ju with writeList := writeList, writing := writing } } ∧
    (e ∈ writeList ∨ writing.map Prod.fst = some e) := by
  have writes := writeListAdd_writes e s
  have frame : writeListAdd e s = { s with
      sc := { s.sc with queue := (writeListAdd e s).sc.queue, current := (writeListAdd e s).sc.current },
      ju := { s.ju with
        writeList := (writeListAdd e s).ju.writeList, writing := (writeListAdd e s).ju.writing } } := by
    unfold writeListAdd
    rw [askJournal_eq]
  exact ⟨_, _, _, _, frame, writes⟩

/-! ### The record's close (R118, R149) -/

/-- The records, one with its DISPENSE fields changed twice, are the records with it changed once. -/
theorem upd_updDispense_comp (ju : Ju) (n : Nat) (f g : DispenseRec → DispenseRec) :
    ((ju.upd n (fun r => r.updDispense f)).upd n (fun r => r.updDispense g)).recs
      = (ju.upd n (fun r => r.updDispense (fun d => g (f d)))).recs := by
  unfold Ju.upd
  dsimp only
  rw [List.map_map]
  refine List.map_congr_left fun r _ => ?_
  dsimp only [Function.comp]
  by_cases hr : r.number = n
  · simp [hr, JRec.updDispense_comp]
  · simp [hr]

/-- A close adjustment: the book falls by it, the hour takes it, and a stock write is asked for. -/
theorem suAdjustment_frame (adj : Int) (s : State) : ∃ hours again queue current writeList writing,
    suAdjustment adj s = { s with
      su := { s.su with book := bookAdd s.su.book (-adj), hours := hours, again := again },
      sc := { s.sc with queue := queue, current := current },
      ju := { s.ju with writeList := writeList, writing := writing } } := by
  unfold suAdjustment
  rw [askStock_eq]
  exact ⟨_, _, _, _, _, _, rfl⟩

section Close
variable {s : State} {h : Hose} {n : Nat}

/-- Steps 1 and 2 of the close sequence for a billed dispense whose record is numbered. -/
theorem takeSummary_billed {m : MuDispense} (hn : s.ju.slots.get h = some (.numbered n))
    (hd : (s.mu.get h).dispense = some m) (hb : m.isProve = false) :
    ∃ hours again queue current writeList writing, takeSummary h s = { s with
      hc := s.hc.set h { s.hc.get h with
        closeTime := some (s.lc.clock, s.lc.sure), drainAt := none, drainLimitAt := none, noFlowAt := none,
        idleAt := none, probeAt := none, summary := some m.summary },
      mu := s.mu.set h { s.mu.get h with dispense := none },
      su := { s.su with book := bookAdd s.su.book (-m.adjustment), hours := hours, again := again },
      sc := { s.sc with queue := queue, current := current },
      ju := { s.ju.upd n (fun r => r.updDispense (fun x => { x with adjustment := m.adjustment })) with
        writeList := writeList, writing := writing } } := by
  have closed : muClose h (s.updHc h (fun hc =>
      { hc with closeTime := some (s.lc.clock, s.lc.sure), drainAt := none, drainLimitAt := none,
                noFlowAt := none, idleAt := none, probeAt := none }))
      = (some m.summary, suAdjustment m.adjustment { s with
          hc := s.hc.set h { s.hc.get h with
            closeTime := some (s.lc.clock, s.lc.sure), drainAt := none, drainLimitAt := none, noFlowAt := none,
            idleAt := none, probeAt := none },
          mu := s.mu.set h { s.mu.get h with dispense := none },
          ju := s.ju.upd n (fun r => r.updDispense (fun x => { x with adjustment := m.adjustment })) }) := by
    unfold muClose
    rw [show ((s.updHc h _).mu.get h).dispense = some m from hd]
    dsimp only
    rw [if_neg (by simp [hb]), updOpenDispense_numbered (n := n) (by exact hn)]
    rfl
  unfold takeSummary
  dsimp only
  rw [closed]
  dsimp only
  obtain ⟨hours, again, q, c, l, w, adjusted⟩ := suAdjustment_frame m.adjustment { s with
    hc := s.hc.set h { s.hc.get h with
      closeTime := some (s.lc.clock, s.lc.sure), drainAt := none, drainLimitAt := none, noFlowAt := none,
      idleAt := none, probeAt := none },
    mu := s.mu.set h { s.mu.get h with dispense := none },
    ju := s.ju.upd n (fun r => r.updDispense (fun x => { x with adjustment := m.adjustment })) }
  refine ⟨hours, again, q, c, l, w, ?_⟩
  rw [adjusted]
  simp only [State.updHc, Two.get_set_self, Two.set_set]

theorem enterWriting_of {u : State} {o : TagOutcome} {m : Summary}
    (hu : pumpSettle (s.updHc h (fun hc => { hc with state := .writing, tagOutcome := some o, tagStep := .none })) = u)
    (hn : u.ju.slots.get h = some (.numbered n)) (hm : (u.hc.get h).summary = some m) :
    enterWriting h o s = closeRecord h (closeFields (u.hc.get h) m o) u := by
  unfold enterWriting
  dsimp only
  rw [hu, hn, hm]

/-- WRITING with a summary and the record numbered: its close fields are set and its write asked for. -/
theorem enterWriting_numbered {o : TagOutcome} {m : Summary} (hn : s.ju.slots.get h = some (.numbered n))
    (hm : (s.hc.get h).summary = some m) :
    ∃ queue current writeList writing, enterWriting h o s = { s with
      hc := s.hc.set h { s.hc.get h with state := .writing, tagOutcome := some o, tagStep := .none },
      pump := (pumpSettle { s with hc := s.hc.set h { s.hc.get h with
        state := .writing, tagOutcome := some o, tagStep := .none } }).pump,
      sc := { s.sc with queue := queue, current := current },
      ju := { s.ju.upd n (fun r => r.updDispense (fun d => d.closeWith (closeFields (s.hc.get h) m o))) with
        writeList := writeList, writing := writing } } ∧
      (.record n ∈ writeList ∨ writing.map Prod.fst = some (.record n)) := by
  rw [enterWriting_of pumpSettle_eq (by exact hn) (by simpa [State.updHc] using hm)]
  unfold closeRecord
  simp only [State.updHc, Two.get_set_self, hn]
  obtain ⟨q, c, l, w, frame, writes⟩ := writeListAdd_frame (.record n) { s with
    hc := s.hc.set h { s.hc.get h with state := .writing, tagOutcome := some o, tagStep := .none },
    pump := (pumpSettle { s with hc := s.hc.set h { s.hc.get h with
      state := .writing, tagOutcome := some o, tagStep := .none } }).pump,
    ju := s.ju.upd n (fun r => r.updDispense (fun d => d.closeWith (closeFields (s.hc.get h) m o))) }
  exact ⟨q, c, l, w, frame, writes⟩

/-- What the pump settling makes of the pump rests on the pump, the time, and which hose needs it. -/
theorem pumpSettle_pump_congr {u v : State} (hp : u.pump = v.pump) (hnow : u.now = v.now)
    (needs : ∀ k, hoseNeeds u k = hoseNeeds v k) : (pumpSettle u).pump = (pumpSettle v).pump := by
  unfold pumpSettle
  rw [hp, needs, needs, hnow]
  split
  · rfl
  · exact hp

/-- The close fields of a record, its amount at its own price. -/
def closeAtPrice (hc : Hc) (m : Summary) (o : TagOutcome) (price : Nat) : CloseFields :=
  { closeFields hc m o with amount := (m.std * price + 500) / 1000 }

/-- The close sequence up to WRITING, of a billed dispense whose record is numbered. -/
theorem closed_numbered {o : TagOutcome} {m : MuDispense} (hn : s.ju.slots.get h = some (.numbered n))
    (hd : (s.mu.get h).dispense = some m) (hb : m.isProve = false) :
    ∃ hours again queue current writeList writing, enterWriting h o (takeSummary h s) =
      (let hose := { s.hc.get h with
         closeTime := some (s.lc.clock, s.lc.sure), drainAt := none, drainLimitAt := none, noFlowAt := none,
         idleAt := none, probeAt := none, summary := some m.summary, state := .writing, tagOutcome := some o,
         tagStep := .none }
       { s with
         hc := s.hc.set h hose,
         mu := s.mu.set h { s.mu.get h with dispense := none },
         su := { s.su with book := bookAdd s.su.book (-m.adjustment), hours := hours, again := again },
         pump := (pumpSettle { s with hc := s.hc.set h hose }).pump,
         sc := { s.sc with queue := queue, current := current },
         ju := { s.ju with
           recs := s.ju.recs.map (fun r => if r.number = n then r.updDispense (fun x =>
             { x with adjustment := m.adjustment, close := some (closeAtPrice hose m.summary o x.price) }) else r),
           writeList := writeList, writing := writing } }) ∧
      (.record n ∈ writeList ∨ writing.map Prod.fst = some (.record n)) := by
  obtain ⟨hours, again, q, c, l, w, summed⟩ := takeSummary_billed hn hd hb
  obtain ⟨q', c', l', w', entered, writes⟩ := enterWriting_numbered (s := takeSummary h s) (o := o)
    (by rw [summed]; exact hn) (by rw [summed]; exact congrArg Hc.summary (Two.get_set_self _ _ _))
  refine ⟨hours, again, q', c', l', w', ?_, writes⟩
  rw [entered, summed]
  simp only [Two.get_set_self, Two.set_set]
  congr 1
  · exact pumpSettle_pump_congr rfl rfl fun _ => rfl
  · have recs := upd_updDispense_comp s.ju n (fun x => { x with adjustment := m.adjustment })
      (fun d => d.closeWith (closeFields { s.hc.get h with
        closeTime := some (s.lc.clock, s.lc.sure), drainAt := none, drainLimitAt := none, noFlowAt := none,
        idleAt := none, probeAt := none, summary := some m.summary } m.summary o))
    exact congrArg (fun recs => { s.ju with recs := recs, writeList := l', writing := w' }) recs

end Close

end Sys2Proof.Machine

/-! An authorisation that ends without flow (section 6.3). -/

namespace Sys2Proof.Machine

section Withdraw
variable {s : State} {h : Hose} {r : DispenseRec} {m : MuDispense}

theorem withdrawRecord_reserved (hr : s.ju.slots.get h = some (.reserved r)) (hw : s.ju.waiting = []) :
    withdrawRecord h s = { s with ju := { s.ju with slots := s.ju.slots.set h none } } := by
  unfold withdrawRecord
  rw [hr]
  exact serveWaiting_of_nil (by exact hw)

/-- The meter's close with the record still a reservation. -/
theorem muClose_reserved (hr : s.ju.slots.get h = some (.reserved r)) (hd : (s.mu.get h).dispense = some m) :
    ∃ r' su sc writeList writing, (muClose h s).2 = { s with
      mu := s.mu.set h { s.mu.get h with dispense := none }, su := su, sc := sc,
      ju := { s.ju with
        slots := s.ju.slots.set h (some (.reserved r')), writeList := writeList, writing := writing } } := by
  unfold muClose
  rw [hd]
  dsimp only
  split
  · refine ⟨r, s.su, s.sc, s.ju.writeList, s.ju.writing, ?_⟩
    rw [← hr, Two.set_get]
    rfl
  · obtain ⟨hours, again, q, c, l, w, adjusted⟩ := suAdjustment_frame m.adjustment
      (updOpenDispense h (fun x => { x with adjustment := m.adjustment })
        (s.updMu h (fun mu => { mu with dispense := none })))
    rw [updOpenDispense_reserved (d := r) (by exact hr)] at adjusted ⊢
    exact ⟨_, _, _, _, _, adjusted⟩

/-- A released machine is not busy at the hose. -/
theorem release_not_busy {n : Nat} {e : Entry} (he : (release h n s).mt.find n = some e) : e.busy ≠ some h := by
  unfold release at he
  dsimp only at he
  rw [Mt.find_upd_self (fun e => by split <;> rfl)] at he
  obtain ⟨old, -, rfl⟩ := Option.map_eq_some_iff.1 he
  split
  · simp
  · assumption

end Withdraw

/-! ### The authorisation ends (R110) -/

section Leave
variable {s : State} {h : Hose} {c : EndCause} {m : MuDispense}

theorem stdTotal_of_open (hd : (s.mu.get h).dispense = some m) : stdTotal s h = m.std := by
  unfold stdTotal
  rw [hd]

/-- The pump settling keeps the hoses that wait for the pump. -/
theorem pumpSettle_waiting (s : State) : (pumpSettle s).pump.waiting = s.pump.waiting := by
  rcases pumpSettle_cases (s := s) with e | e <;> rw [e]

/-- With nothing metered the grant is given back. -/
theorem leaveAuthorised_unmetered {r : DispenseRec} (hd : (s.mu.get h).dispense = some m) (hstd : m.std = 0)
    (hr : s.ju.slots.get h = some (.reserved r)) (hw : s.ju.waiting = []) :
    ∃ su sc writeList writing, leaveAuthorised h c s = pumpSettle { s with
      hc := s.hc.set h ((s.hc.get h).ends c).rest,
      au := { s.au with session := s.au.session.set h (Session.empty (s.au.session.get h).serial) },
      mu := s.mu.set h { s.mu.get h with dispense := none },
      mt := (release h ((s.hc.get h).machine.getD 0) s).mt, su := su, sc := sc,
      pump := { s.pump with waiting := s.pump.waiting.set h false },
      ju := { s.ju with
        slots := s.ju.slots.set h none, writeList := writeList, writing := writing } } := by
  obtain ⟨r', su, sc, l, w, closed⟩ := muClose_reserved (r := r) (m := m) (h := h)
    (s := sessionNone h (leaveWaiting h (s.updHc h (fun hc => hc.ends c)))) (by exact hr) (by exact hd)
  unfold leaveAuthorised
  dsimp only
  rw [if_pos (by rw [stdTotal_of_open hd]; exact hstd), closed,
    withdrawRecord_reserved (r := r') (by exact Two.get_set_self _ _ _) (by exact hw)]
  refine ⟨su, sc, l, w, ?_⟩
  simp only [State.updHc, release, sessionNone, State.updSession, leaveWaiting, Two.get_set_self, Two.set_set]

/-- With some fuel metered the close sequence follows at once. -/
theorem leaveAuthorised_metered (hd : (s.mu.get h).dispense = some m) (hstd : m.std ≠ 0) : leaveAuthorised h c s
    = closeStraight h (sessionNone h (leaveWaiting h (s.updHc h (fun hc => hc.ends c)))) := by
  unfold leaveAuthorised
  dsimp only
  rw [if_neg (by rw [stdTotal_of_open hd]; exact hstd)]

theorem hoseEnd_authorised (hs : (s.hc.get h).state = .authorised) : hoseEnd h c s = leaveAuthorised h c s := by
  unfold hoseEnd
  rw [hs]

theorem exec_noFlowTimer {d : Nat} (hp : s.power = .released) (hs : (s.hc.get h).state = .authorised)
    (hd : (s.hc.get h).noFlowAt = some d) :
    exec (.noFlowTimer h) s = .next (hoseEnd h .idleTimeout (s.reach d)) :=
  live_atDue (due := fun s => dueIn s h .authorised (s.hc.get h).noFlowAt) hp ((dueIn_of_state hs).trans hd)

end Leave

/-- The three causes reach an authorised hose in a state that differs in the time, the panel, and what a hang has made
of the nozzle. -/
theorem authorised_cause {s : State} {h : Hose} {i : Instr} {c : EndCause} {now : Nat} (hp : s.power = .released)
    (hs : (s.hc.get h).state = .authorised)
    (hi : i = .noFlowTimer h ∧ c = .idleTimeout ∧ (∃ d, (s.hc.get h).noFlowAt = some d ∧ now = max s.now d) ∨
      i = .nozzleHang h ∧ c = .nozzleHung ∧ (s.hc.get h).nozzleOut = true ∧ now = s.now ∨
      (∃ num, i = .stop num ∧ Takes s num ∧ s.pp.selected = h ∧ c = .operatorStop ∧ now = s.now)) :
    ∃ pp shown proveShown factorNotStored, exec i s = .next (leaveAuthorised h c { s with
      now := now, pp := pp,
      hc := s.hc.set h { s.hc.get h with
        nozzleOut := (s.hc.get h).nozzleOut && decide (c ≠ .nozzleHung), shown := shown, proveShown := proveShown,
        factorNotStored := factorNotStored } }) := by
  rcases hi with ⟨rfl, rfl, d, hd, rfl⟩ | ⟨rfl, rfl, ho, rfl⟩ | ⟨num, rfl, ht, hsel, rfl, rfl⟩
  · refine ⟨s.pp, (s.hc.get h).shown, (s.hc.get h).proveShown, (s.hc.get h).factorNotStored, ?_⟩
    rw [exec_noFlowTimer hp hs hd, hoseEnd_authorised (by exact hs)]
    simp only [Bool.and_true, State.reach, ne_eq, reduceCtorEq, not_false_eq_true, decide_true]
    exact congrArg (fun hc => Host.Outcome.next (leaveAuthorised h .idleTimeout
      { s with now := max s.now d, hc := hc })) (Two.set_get s.hc h).symm
  · refine ⟨s.pp, .nothing, none, false, ?_⟩
    rw [exec_nozzleHang hp ho, hung_ends (.inl hs), hoseEnd_authorised (by simpa [hangs, State.updHc] using hs)]
    simp [hangs, State.updHc]
  · subst hsel
    refine ⟨(taken num s).pp, (s.hc.get s.pp.selected).shown, (s.hc.get s.pp.selected).proveShown,
      (s.hc.get s.pp.selected).factorNotStored, ?_⟩
    rw [exec_stop ht, stopKey_ends (.inl (by exact hs)), hoseEnd_authorised (by exact hs)]
    simp only [Bool.and_true, ne_eq, reduceCtorEq, not_false_eq_true, decide_true]
    exact congrArg (fun hc => Host.Outcome.next (leaveAuthorised s.pp.selected .operatorStop
      { s with pp := (taken num s).pp, hc := hc })) (Two.set_get s.hc s.pp.selected).symm

/-- Settles O50: the cause, then the grant given back or the close. -/
theorem noFlowGivesTheGrantBack : Obligations.NoFlowGivesTheGrantBack := by
  intro s h i c now m hp hs hd hi
  obtain ⟨pp, shown, proveShown, notStored, reached⟩ := authorised_cause hp hs hi
  refine ⟨fun r hstd hr hw => ?_, fun n hstd hb hn => ?_⟩
  · obtain ⟨su, sc, l, w, left⟩ := leaveAuthorised_unmetered (c := c) (h := h) (m := m) (r := r)
      (s := { s with
        now := now, pp := pp,
        hc := s.hc.set h { s.hc.get h with
          nozzleOut := (s.hc.get h).nozzleOut && decide (c ≠ .nozzleHung), shown := shown,
          proveShown := proveShown, factorNotStored := notStored } }) hd hstd hr hw
    rw [pumpSettle_eq] at left
    refine ⟨_, reached.trans (congrArg Host.Outcome.next left), rfl, ?_, ?_, fun ho => ?_, ?_, ?_, ?_, ?_, ?_, rfl, rfl,
      ?_, rfl, fun e he => ?_⟩
    · simp [Hc.ends, Hc.show, Hc.rest, Hc.discard]
    · simp [Hc.ends, Hc.show, Hc.rest, Hc.discard]
    · simpa [Hc.ends, Hc.show, Hc.rest, Hc.discard] using ho
    · simp [Hc.ends, Hc.show, Hc.rest, Hc.discard]
    · simp
    · exact Two.get_set_self _ _ _
    · exact congrArg Mu.dispense (Two.get_set_self _ _ _)
    · exact Two.get_set_self _ _ _
    · exact (congrArg (Two.get · h) (pumpSettle_waiting _)).trans (Two.get_set_self _ _ _)
    · simp only [Two.get_set_self] at he
      exact release_not_busy he
  · rw [leaveAuthorised_metered (m := m) (by exact hd) hstd, closeStraight] at reached
    generalize hv : sessionNone h (leaveWaiting h (State.updHc { s with
      now := now, pp := pp,
      hc := s.hc.set h { s.hc.get h with
        nozzleOut := (s.hc.get h).nozzleOut && decide (c ≠ .nozzleHung), shown := shown,
        proveShown := proveShown, factorNotStored := notStored } } h (fun hc => hc.ends c))) = v at reached
    obtain ⟨hours, again, q, k, l, w, entered, writes⟩ := closed_numbered (s := v) (h := h) (n := n) (m := m)
      (o := .notAttempted) (by rw [← hv]; exact hn) (by rw [← hv]; exact hd) hb
    rw [entered, ← hv] at reached
    refine ⟨_, reached, rfl, ?_, ?_, ?_, ?_, ?_, ?_, ?_, ?_, ?_, rfl, rfl, rfl, ?_, rfl, ?_, writes⟩
    · exact congrArg Hc.state (Two.get_set_self _ _ _)
    · simp [sessionNone, State.updSession, leaveWaiting, State.updHc, Hc.ends, Hc.show]
    · simp [sessionNone, State.updSession, leaveWaiting, State.updHc, Hc.ends, Hc.show]
    · exact congrArg Hc.tagOutcome (Two.get_set_self _ _ _)
    · exact congrArg Hc.summary (Two.get_set_self _ _ _)
    · exact congrArg Hc.closeTime (Two.get_set_self _ _ _)
    · simp [sessionNone, State.updSession, leaveWaiting, State.updHc]
    · exact Two.get_set_self _ _ _
    · exact congrArg Mu.dispense (Two.get_set_self _ _ _)
    · exact hn
    · refine List.map_congr_left fun r _ => ?_
      simp [sessionNone, State.updSession, leaveWaiting, State.updHc, Hc.ends, Hc.show, closeAtPrice, closeFields]
      rfl

end Sys2Proof.Machine

/-! The end of the drain and the tag write that follows it (sections 6.5 and 6.6). -/

namespace Sys2Proof.Machine

/-! ### The drain ends (R117) -/

section Drain
variable {s : State} {h : Hose} {d : Nat}

/-- Both times end the drain; the second lets the alarm "valve not closing" stand. -/
theorem exec_drainTimes {i : Instr} (hp : s.power = .released)
    (hi : i = .drainEnd h ∧ (s.hc.get h).drainAt = some d ∨
      i = .drainTimeLimit h ∧ (s.hc.get h).drainLimitAt = some d) :
    ∃ alarm, (i = .drainTimeLimit h → alarm = true) ∧ exec i s = .next (drained h { s with
      now := max s.now d, hc := s.hc.set h { s.hc.get h with valveAlarm := alarm } }) := by
  rcases hi with ⟨rfl, hd⟩ | ⟨rfl, hd⟩
  · refine ⟨(s.hc.get h).valveAlarm, fun e => Instr.noConfusion e, ?_⟩
    have same := congrArg (fun hc => drained h { s with now := max s.now d, hc := hc }) (Two.set_get s.hc h).symm
    exact (live_atDue (due := fun s => (s.hc.get h).drainAt) hp hd).trans (congrArg Host.Outcome.next same)
  · exact ⟨true, fun _ => rfl, live_atDue (due := fun s => (s.hc.get h).drainLimitAt) hp hd⟩

theorem drained_stopping (hs : (s.hc.get h).state = .stopping) : drained h s = closeFromDrain h s := by
  unfold drained
  rw [hs]

theorem drained_proving (hs : (s.hc.get h).state = .proving) : drained h s = proveClose h s := by
  unfold drained
  rw [hs]

end Drain

/-! ### The tag write decision (R119) -/

section Decision
variable {s : State} {h : Hose}

theorem writeDecision_now (hb : (s.tiu.get h).busy ≠ .probing) : writeDecision h s = decideTag h s :=
  if_neg fun ⟨e, _⟩ => hb e

theorem decideTag_notWanted (hw : tagWriteWanted (s.hc.get h) (s.tiu.get h).present = false) :
    decideTag h s = enterWriting h .notAttempted s :=
  if_neg (by simp [hw])

theorem decideTag_refused (hw : tagWriteWanted (s.hc.get h) (s.tiu.get h).present = true)
    (hr : s.warned = true ∨ (s.tiu.get h).busy ≠ .idle) : decideTag h s = enterWriting h .failed s := by
  have refused (ask : TagAsk) : tagRequest h .hc ask s = (false, s) := if_pos (by simpa using hr)
  unfold decideTag
  dsimp only
  rw [if_pos hw, refused]

theorem decideTag_taken (hw : tagWriteWanted (s.hc.get h) (s.tiu.get h).present = true) (hn : s.warned = false)
    (hb : (s.tiu.get h).busy = .idle) :
    decideTag h s = (s.updTiu h (fun t => t.start .hc
      (.writeHistory ((s.hc.get h).machine.getD 0) (closeDraw (stationId s) (s.hc.get h))) s.now)).updHc h
        (fun x => { x with tagStep := .writing }) := by
  unfold decideTag
  dsimp only
  rw [if_pos hw, tagRequest_taken hn hb]

/-- Outside a taken request the hose is in WRITING, with no write attempted or with one that failed. -/
theorem decideTag_writing
    (hr : tagWriteWanted (s.hc.get h) (s.tiu.get h).present = true →
      s.warned = true ∨ (s.tiu.get h).busy ≠ .idle) :
    decideTag h s = enterWriting h
      (if tagWriteWanted (s.hc.get h) (s.tiu.get h).present then .failed else .notAttempted) s := by
  cases hw : tagWriteWanted (s.hc.get h) (s.tiu.get h).present with
  | true => exact decideTag_refused hw (hr hw)
  | false => exact decideTag_notWanted hw

end Decision

/-! ### The pump as the hose goes to WRITING (R124) -/

/-- A hose in WRITING needs the pump no more, so the other hose alone decides. -/
theorem pumpSettle_writing {s : State} {h : Hose} {needs : Bool} (hs : (s.hc.get h).state = .writing)
    (hn : hoseNeeds s h.other = needs) : (pumpSettle s).pump
    = if s.pump.state = .running ∧ needs = false then
        { s.pump with state := .runOn, runOnAt := some (s.now + sec 5) } else s.pump := by
  have none_needs : hoseNeeds s .a = false ∧ hoseNeeds s .b = false ↔ needs = false := by
    have : hoseNeeds s h = false := by unfold hoseNeeds; rw [hs]
    subst hn
    cases h <;> simp [this, Hose.other]
  unfold pumpSettle
  simp only [none_needs]
  split <;> rfl

theorem hoseNeeds_congr {u v : State} {h : Hose} (hc : u.hc.get h = v.hc.get h) (hp : u.prove = v.prove) :
    hoseNeeds u h = hoseNeeds v h := by
  unfold hoseNeeds
  rw [hc, hp]

/-! ### What the close of a drained dispense leaves in every case (R118) -/

/-- The close sequence's first steps at the hose, the meter, and the book. -/
structure DrainClosed (s : State) (h : Hose) (m : MuDispense) (now : Nat) (alarm : Bool) (t : State) : Prop where
  now : t.now = now
  summary : (t.hc.get h).summary = some m.summary
  closeTime : (t.hc.get h).closeTime = some (s.lc.clock, s.lc.sure)
  drainAt : (t.hc.get h).drainAt = none
  drainLimitAt : (t.hc.get h).drainLimitAt = none
  alarm : (t.hc.get h).valveAlarm = alarm
  other : t.hc.get h.other = s.hc.get h.other
  dispense : (t.mu.get h).dispense = none
  book : t.su.book = bookAdd s.su.book (-m.adjustment)
  counter : t.ju.counter = s.ju.counter
  lc : t.lc = s.lc

/-- The record closed with a tag write outcome, in the list of records. -/
def closedRecs (s : State) (h : Hose) (n : Nat) (adj : Option Int) (m : Summary) (o : TagOutcome) (clock : Nat)
    (sure : Bool) : List JRec :=
  s.ju.recs.map (fun r => if r.number = n then r.updDispense (fun x =>
    { x with
      adjustment := adj.getD x.adjustment
      close := some {
        gross := m.gross, std := m.std, overrun := roundClNat (s.hc.get h).overrun, theta := m.theta,
        held := m.held, overspeed := m.overspeed, endCause := (s.hc.get h).endCause.getD .limit, tagOutcome := o,
        time := clock, sure := sure, amount := (m.std * x.price + 500) / 1000, recovered := false } }) else r)

section Closed
variable {s v : State} {h : Hose} {n now : Nat} {alarm : Bool} {m : MuDispense}

/-- The state in which a drain ends. -/
def drainedState (s : State) (h : Hose) (now : Nat) (alarm : Bool) : State :=
  { s with now := now, hc := s.hc.set h { s.hc.get h with valveAlarm := alarm } }

/-- The close goes to WRITING with the record closed. -/
theorem drainClosed_writing (o : TagOutcome) (hn : s.ju.slots.get h = some (.numbered n))
    (hd : (s.mu.get h).dispense = some m) (hb : m.isProve = false) :
    ∃ t, enterWriting h o (takeSummary h (drainedState s h now alarm)) = t ∧ DrainClosed s h m now alarm t ∧
      (t.hc.get h).state = .writing ∧ (t.hc.get h).tagOutcome = some o ∧
      t.ju.recs = closedRecs s h n (some m.adjustment) m.summary o s.lc.clock s.lc.sure ∧
      (.record n ∈ t.ju.writeList ∨ t.ju.writing.map Prod.fst = some (.record n)) ∧ t.tiu = s.tiu ∧
      t.pump = if s.pump.state = .running ∧ hoseNeeds s h.other = false then
        { s.pump with state := .runOn, runOnAt := some (now + sec 5) } else s.pump := by
  obtain ⟨hours, again, q, c, l, w, entered, writes⟩ := closed_numbered (s := drainedState s h now alarm) (h := h)
    (n := n) (m := m) (o := o) hn hd hb
  refine ⟨_, entered, ⟨rfl, ?_, ?_, ?_, ?_, ?_, ?_, ?_, rfl, rfl, rfl⟩, ?_, ?_, ?_, writes, rfl, ?_⟩
  · exact congrArg Hc.summary (Two.get_set_self _ _ _)
  · exact congrArg Hc.closeTime (Two.get_set_self _ _ _)
  · exact congrArg Hc.drainAt (Two.get_set_self _ _ _)
  · exact congrArg Hc.drainLimitAt (Two.get_set_self _ _ _)
  · simp [drainedState]
  · simp [drainedState]
  · exact congrArg Mu.dispense (Two.get_set_self _ _ _)
  · exact congrArg Hc.state (Two.get_set_self _ _ _)
  · exact congrArg Hc.tagOutcome (Two.get_set_self _ _ _)
  · simp only [drainedState, closedRecs, closeAtPrice, closeFields, Two.get_set_self, Option.getD_some]
  · exact pumpSettle_writing (h := h) (needs := hoseNeeds s h.other) (by simp)
      (hoseNeeds_congr (by simp [drainedState]) rfl)

/-- The close asks for the new history to be written to the tag. -/
theorem drainClosed_asked (hn : s.ju.slots.get h = some (.numbered n))
    (hs : (s.hc.get h).state = .stopping)
    (hd : (s.mu.get h).dispense = some m) (hb : m.isProve = false) (hw : s.warned = false)
    (hi : (s.tiu.get h).busy = .idle)
    (wanted : tagWriteWanted { s.hc.get h with summary := some m.summary } (s.tiu.get h).present = true) :
    ∃ t, decideTag h (takeSummary h (drainedState s h now alarm)) = t ∧ DrainClosed s h m now alarm t ∧
      (t.hc.get h).state = .stopping ∧ (t.hc.get h).tagStep = .writing ∧ t.pump = s.pump ∧
      t.tiu = s.tiu.set h ((s.tiu.get h).start .hc (.writeHistory ((s.hc.get h).machine.getD 0)
        { bowser := stationId s, time := s.lc.clock, sure := s.lc.sure, volume := roundClNat m.std }) now) := by
  obtain ⟨hours, again, q, c, l, w, summed⟩ := takeSummary_billed (s := drainedState s h now alarm) (h := h)
    (n := n) (m := m) hn hd hb
  rw [decideTag_taken (by rw [summed]; simpa [tagWriteWanted, drainedState] using wanted) (by rw [summed]; exact hw)
    (by rw [summed]; exact hi), summed]
  refine ⟨_, rfl, ⟨rfl, ?_, ?_, ?_, ?_, ?_, ?_, ?_, rfl, rfl, rfl⟩, ?_, ?_, rfl, ?_⟩
  · simp [State.updHc]
  · simp [State.updHc, drainedState]
  · simp [State.updHc]
  · simp [State.updHc]
  · simp [State.updHc, drainedState]
  · simp [State.updHc, drainedState]
  · exact congrArg Mu.dispense (Two.get_set_self _ _ _)
  · simpa [State.updHc, drainedState] using hs
  · simp [State.updHc]
  · simp only [State.updHc, State.updTiu, drainedState, Two.get_set_self]
    rfl

/-- Every close from a drain: WRITING, unless the tag is to be written and its TIU takes the request. -/
theorem closeFromDrain_eq (hn : s.ju.slots.get h = some (.numbered n)) (hd : (s.mu.get h).dispense = some m)
    (hb : m.isProve = false) (hq : (s.tiu.get h).busy ≠ .probing) :
    let u := takeSummary h (drainedState s h now alarm)
    let wanted := tagWriteWanted { s.hc.get h with summary := some m.summary } (s.tiu.get h).present
    closeFromDrain h (drainedState s h now alarm) = decideTag h u ∧
    ((wanted = true → s.warned = true ∨ (s.tiu.get h).busy ≠ .idle) →
      decideTag h u = enterWriting h (if wanted then .failed else .notAttempted) u) := by
  obtain ⟨hours, again, q, c, l, w, summed⟩ := takeSummary_billed (s := drainedState s h now alarm) (h := h)
    (n := n) (m := m) hn hd hb
  intro u wanted
  have tiu : u.tiu = s.tiu := by rw [show u = _ from summed]; rfl
  have warned : u.warned = s.warned := by rw [show u = _ from summed]; rfl
  have same : tagWriteWanted (u.hc.get h) (u.tiu.get h).present = wanted := by
    rw [tiu, show u = _ from summed]
    simp [wanted, tagWriteWanted, drainedState]
  refine ⟨writeDecision_now (by exact tiu ▸ hq), fun hr => ?_⟩
  rw [decideTag_writing (by rw [same, warned, tiu]; exact hr), same]

end Closed

/-- Whether the tag is to be written, read from the hose's fields. -/
theorem tagWriteWanted_iff {hc : Hc} {m : MuDispense} {present : Bool} :
    tagWriteWanted { hc with summary := some m.summary } present = true ↔
      hc.hungSinceEnd = false ∧ hc.endCause ≠ some .nozzleHung ∧ hc.endCause ≠ some .tagLost ∧
        present = true ∧ 0 < roundClNat m.std := by
  simp only [tagWriteWanted, Option.map_some, Option.getD_some, Bool.and_eq_true, decide_eq_true_eq,
    Bool.not_eq_true', and_assoc]
  rw [show m.summary.std = roundClNat m.std from rfl]
  tauto

/-! ### The tag write goes on and ends (R34, R36) -/

section Write
variable {s : State} {h : Hose} {n : Nat}

theorem takeAnswer_done_write1 {bytes : List Byte} {m : Nat} {hist : History}
    (hb : (s.tiu.get h).busy = .write1 m hist) : takeAnswer h (.done bytes) s
      = continueTag h (.write2 m hist) (.writeFragment 2 m (historyFragment2 hist)) true s := by
  simp only [takeAnswer, answeredDone, hb]

/-- The code with which an answer to fragment 2 ends a WRITE-HISTORY. -/
def writeCode : HeadResult → Completion
  | .done _ => .writeDone
  | .absent => .tagError .noTag
  | .otherTag => .tagError .changed

/-- Whether the answer to fragment 2 says that it is written. -/
def wrote (result : HeadResult) : Bool := decide (result ≠ .absent) && decide (result ≠ .otherTag)

/-- The TIU after the answer to fragment 2 of a WRITE-HISTORY. -/
def writtenTiu (t : Tiu) (hist : History) (result : HeadResult) : Tiu :=
  Tiu.finish { t with
    record := if wrote result then t.record.map (fun x => { x with history := hist }) else t.record }
    (writeCode result)

/-- The end of HC's WRITE-HISTORY brings the hose to WRITING. -/
theorem finishTag_write {code : Completion} (hr : (s.tiu.get h).requester = some .hc)
    (hb : (s.tiu.get h).busy ≠ .probing) (ht : (s.hc.get h).tagStep = .writing) : finishTag h code s
      = enterWriting h (if code = .writeDone then .done else .failed) (s.updTiu h (fun x => x.finish code)) := by
  unfold finishTag
  dsimp only
  rw [hr]
  exact (if_neg hb).trans (if_pos ht)

theorem takeAnswer_write2 {result : HeadResult} {m : Nat} {hist : History}
    (hb : (s.tiu.get h).busy = .write2 m hist) (hr : (s.tiu.get h).requester = some .hc)
    (ht : (s.hc.get h).tagStep = .writing) : takeAnswer h result s
      = enterWriting h (if wrote result then .done else .failed) (s.updTiu h (fun x => writtenTiu x hist result)) := by
  cases result with
  | done bytes =>
    simp only [takeAnswer, answeredDone, hb, writeEnds]
    rw [finishTag_write (by simpa using hr) (by simp [hb]) (by simpa using ht)]
    simp only [State.updTiu, Two.get_set_self, Two.set_set]
    rfl
  | absent => exact finishTag_write (code := .tagError .noTag) hr (by simp [hb]) ht
  | otherTag =>
    have write : (s.tiu.get h).busy.isWrite = true := by rw [hb]; rfl
    simp only [takeAnswer, write, if_true]
    exact finishTag_write (code := .tagError .changed) hr (by simp [hb]) ht

theorem presenceAfter_writeCode {result : HeadResult} : presenceAfter (writeCode result) = wrote result := by
  cases result <;> rfl

end Write

/-- Settles O51: the close sequence from the drain, fragment 2, and the end of the write. -/
theorem drainEndsInTheClose : Obligations.DrainEndsInTheClose := by
  intro s h n hp hs hn
  refine ⟨fun i d m hi hq hd hb => ?_, fun ok num bytes m hist ha hb => ?_,
    fun ok num result m hist sum clock sure ha hb hr ht hm hc => ?_⟩
  · obtain ⟨alarm, halarm, ran⟩ := exec_drainTimes hp hi
    obtain ⟨decided, writing⟩ := closeFromDrain_eq (now := max s.now d) (alarm := alarm) hn hd hb hq
    replace ran := (ran.trans (congrArg Host.Outcome.next (drained_stopping
      (s := drainedState s h (max s.now d) alarm) (by simpa [drainedState] using hs)))).trans
      (congrArg Host.Outcome.next decided)
    by_cases hw : tagWriteWanted { s.hc.get h with summary := some m.summary } (s.tiu.get h).present = true ∧
        s.warned = false ∧ (s.tiu.get h).busy = .idle
    · obtain ⟨wanted, notWarned, idle⟩ := hw
      obtain ⟨t, ended, c, state, step, pump, tiu⟩ := drainClosed_asked (alarm := alarm) (now := max s.now d) hn hs
        hd hb notWarned idle wanted
      refine ⟨t, ran.trans (congrArg Host.Outcome.next ended), c.now, c.summary, c.closeTime, c.drainAt,
        c.drainLimitAt, fun e => c.alarm.trans (halarm e), c.other, c.dispense, c.book, c.counter, c.lc,
        fun none => ?_, fun _ _ _ _ _ _ _ => ⟨state, step, pump, tiu⟩⟩
      obtain ⟨hung, nozzle, lost, present, volume⟩ := tagWriteWanted_iff.1 wanted
      exfalso
      simp_all
    · obtain ⟨t, ended, c, state, outcome, recs, writes, tiu, pump⟩ := drainClosed_writing (alarm := alarm)
        (now := max s.now d) _ hn hd hb
      refine ⟨t, ran.trans (congrArg Host.Outcome.next ((writing ?_).trans ended)), c.now, c.summary, c.closeTime,
        c.drainAt, c.drainLimitAt, fun e => c.alarm.trans (halarm e), c.other, c.dispense, c.book, c.counter, c.lc,
        fun none => ?_, fun hung nozzle lost present volume idle notWarned =>
          (hw ⟨tagWriteWanted_iff.2 ⟨hung, nozzle, lost, present, volume⟩, notWarned, idle⟩).elim⟩
      · rintro wanted
        simp_all [Classical.or_iff_not_imp_left]
      · have notWanted : tagWriteWanted { s.hc.get h with summary := some m.summary } (s.tiu.get h).present = false := by
          refine Bool.eq_false_iff.2 fun wanted => ?_
          obtain ⟨hung, nozzle, lost, present, volume⟩ := tagWriteWanted_iff.1 wanted
          simp_all
        rw [notWanted] at outcome recs
        exact ⟨state, outcome, recs, writes, tiu, pump⟩
  · rw [exec_headAnswer_accepted hp ha, takeAnswer_done_write1 hb]
    rfl
  · obtain ⟨q, c, l, w, entered, writes⟩ := enterWriting_numbered (n := n) (h := h) (m := sum)
      (s := s.updTiu h (fun x => writtenTiu x hist result))
      (o := if wrote result then .done else .failed) (by exact hn) (by exact hm)
    refine ⟨_, (exec_headAnswer_accepted hp ha).trans (congrArg Host.Outcome.next
      ((takeAnswer_write2 hb hr ht).trans entered)), ?_, ?_, ?_, ?_, writes, ?_, ?_, ?_, ?_⟩
    · exact congrArg Hc.state (Two.get_set_self _ _ _)
    · exact congrArg Hc.tagStep (Two.get_set_self _ _ _)
    · exact congrArg Hc.tagOutcome (Two.get_set_self _ _ _)
    · simp only [closeFields, updTiu_hc, hc, Option.getD_some]
      rfl
    · simp [writtenTiu, Tiu.finish]
    · exact (congrArg Tiu.present (Two.get_set_self _ _ _)).trans presenceAfter_writeCode
    · intro done
      simp [writtenTiu, Tiu.finish, show wrote result = true from done]
    · simp

end Sys2Proof.Machine

/-! The pump: its times, and its answer to a hose (section 6.7). -/

namespace Sys2Proof.Machine

/-! ### A hose joins (R109) -/

/-- The stage that opens for a hose: SLOW when forced or near the limit, else FULL. -/
def openingStage (s : State) (h : Hose) : Stage :=
  if (s.hc.get h).forcedSlow ∨ slowNow ((s.hc.get h).limit.getD 0) (slowDownOf s h) (compareTotal s h)
  then .slow else .full

/-- The hose joined, its stage open and its timer running. -/
def joining (now : Nat) (stage : Stage) (hc : Hc) : Hc :=
  if hc.state = .proving then { hc with joined := true, idleAt := some (now + sec 60), stage := stage }
  else { hc with joined := true, noFlowAt := some (now + sec 60), stage := stage }

theorem openingStage_ne_closed (s : State) (h : Hose) : openingStage s h ≠ .closed := by
  unfold openingStage
  split <;> simp

@[simp] theorem joining_joined (now : Nat) (stage : Stage) (hc : Hc) : (joining now stage hc).joined = true := by
  unfold joining
  split <;> rfl

@[simp] theorem joining_stage (now : Nat) (stage : Stage) (hc : Hc) : (joining now stage hc).stage = stage := by
  unfold joining
  split <;> rfl

/-- Joined, of either kind of dispense: the hose alone changes. -/
theorem joinPump_set (h : Hose) (s : State) :
    joinPump h s = { s with hc := s.hc.set h (joining s.now (openingStage s h) (s.hc.get h)) } := by
  unfold joinPump openStage
  by_cases hs : (s.hc.get h).state = .proving
  · simp [State.updHc, joining, openingStage, hs, compareTotal, slowDownOf, grossTotal]
  · simp [State.updHc, joining, openingStage, hs, compareTotal, slowDownOf, stdTotal]

theorem openingStage_congr {u v : State} {h : Hose} (hc : u.hc.get h = v.hc.get h) (hm : u.mu = v.mu)
    (hg : u.cfg = v.cfg) : openingStage u h = openingStage v h := by
  unfold openingStage compareTotal slowDownOf grossTotal stdTotal
  rw [hc, hm, hg]

/-! ### Every hose that waits joins (R125) -/

theorem joinHeld_pump (s : State) : (joinHeld s).pump = { s.pump with waiting := Two.both false } := by
  unfold joinHeld
  simp only [joinPump_set]
  split <;> split <;> rfl

theorem joinHeld_hc (s : State) (k : Hose) : (joinHeld s).hc.get k
    = if s.pump.waiting.get k then joining s.now (openingStage s k) (s.hc.get k) else s.hc.get k := by
  unfold joinHeld
  simp only [joinPump_set]
  cases k with
  | a =>
    show _ = if s.pump.waiting.a then joining s.now (openingStage s .a) s.hc.a else s.hc.a
    split <;> split <;> rfl
  | b =>
    show _ = if s.pump.waiting.b then joining s.now (openingStage s .b) s.hc.b else s.hc.b
    split <;> split <;> rfl

/-! ### A hose asks for the pump (R125, R127) -/

section PumpAsk
variable {s : State} {h : Hose}

theorem pumpRequest_of_running (hw : s.warned = false) (hp : s.pump.state = .running) :
    pumpRequest h s = joinHeld (joinPump h s) := by
  unfold pumpRequest
  rw [if_neg (by simp [hw]), hp]

theorem pumpRequest_of_runOn (hw : s.warned = false) (hp : s.pump.state = .runOn) : pumpRequest h s
    = joinHeld (joinPump h { s with pump := { s.pump with state := .running, runOnAt := none } }) := by
  unfold pumpRequest
  rw [if_neg (by simp [hw]), hp]

theorem pumpRequest_of_stopped (hw : s.warned = false) (hp : s.pump.state = .stopped) (hl : s.pump.level < 6) :
    pumpRequest h s = joinHeld (joinPump h (startPump s)) := by
  unfold pumpRequest
  rw [if_neg (by simp [hw]), hp]
  exact if_pos hl

theorem pumpRequest_of_budget (hw : s.warned = false) (hp : s.pump.state = .stopped) (hl : 6 ≤ s.pump.level) :
    pumpRequest h s = { s with pump := { s.pump with waiting := s.pump.waiting.set h true } } := by
  unfold pumpRequest
  rw [if_neg (by simp [hw]), hp]
  exact if_neg (by omega)

/-- With room in the budget the hose that asks joins the pump, made to run, and every hose that waits joins it too. -/
theorem pumpRequest_joins (hw : s.warned = false) (hp : s.pump.state ≠ .stopped ∨ s.pump.level < 6) :
    ∃ p : Pump, p.state = .running ∧ p.waiting = s.pump.waiting ∧
      pumpRequest h s = joinHeld (joinPump h { s with pump := p }) := by
  cases hs : s.pump.state with
  | running => exact ⟨s.pump, hs, rfl, pumpRequest_of_running hw hs⟩
  | runOn => exact ⟨{ s.pump with state := .running, runOnAt := none }, rfl, rfl, pumpRequest_of_runOn hw hs⟩
  | stopped =>
    exact ⟨(startPump s).pump, rfl, rfl, pumpRequest_of_stopped hw hs (hp.resolve_left (by simp [hs]))⟩

/-- Alone, the hose that asks joins and nothing else changes. -/
theorem joinHeld_joinPump_alone {p : Pump} (hn : p.waiting = Two.both false) :
    joinHeld (joinPump h { s with pump := p })
      = { s with hc := s.hc.set h (joining s.now (openingStage s h) (s.hc.get h)), pump := p } := by
  rw [joinHeld_of_none (by rw [joinPump_set]; exact hn), joinPump_set]
  rfl

end PumpAsk

/-! ### The pump's times (R124, R126) -/

section Times
variable {s : State} {d : Nat}

theorem exec_runOnTimer (hp : s.power = .released) (hs : s.pump.state = .runOn) (hd : s.pump.runOnAt = some d) :
    exec .runOnTimer s = .next { s with
      now := max s.now d, pump := { s.pump with state := .stopped, runOnAt := none } } :=
  live_atDue (due := fun s => if s.pump.state = .runOn then s.pump.runOnAt else none) hp ((if_pos hs).trans hd)

theorem exec_budgetFall (hp : s.power = .released) (hd : s.pump.fallAt = some d) :
    exec .budgetFall s = .next (budgetFalls d (s.reach d)) := by
  refine (if_pos hp : exec .budgetFall s = _).trans (congrArg Host.Outcome.next ?_)
  dsimp only
  rw [hd]

/-- The state after the level's fall. -/
def fallen (due : Nat) (s : State) : State :=
  { s with pump := { s.pump with
    level := s.pump.level - 1,
    fallAt := if s.pump.level - 1 = 0 then none else some (due + sec 100) } }

theorem budgetFalls_idle (hn : s.pump.waiting = Two.both false) : budgetFalls d s = fallen d s := by
  have none_waits : ¬(s.pump.waiting.a ∨ s.pump.waiting.b) := by simp [hn, Two.both]
  unfold budgetFalls
  exact if_neg fun ⟨_, _, waits, _⟩ => none_waits waits

theorem budgetFalls_serves {h : Hose} (hs : s.pump.state = .stopped) (hl : s.pump.level = 6)
    (hw : s.warned = false) (hn : s.pump.waiting.get h = true) :
    budgetFalls d s = joinHeld (startPump (fallen d s)) := by
  have waits : s.pump.waiting.a = true ∨ s.pump.waiting.b = true := by
    cases h with
    | a => exact .inl hn
    | b => exact .inr hn
  unfold budgetFalls
  exact if_pos ⟨hs, by omega, waits, hw⟩

theorem pumpSettle_runsOn (hs : s.pump.state = .running) (ha : hoseNeeds s .a = false)
    (hb : hoseNeeds s .b = false) :
    pumpSettle s = { s with pump := { s.pump with state := .runOn, runOnAt := some (s.now + sec 5) } } :=
  if_pos ⟨hs, ha, hb⟩

theorem pumpSettle_of_needed (h : s.pump.state ≠ .running ∨ hoseNeeds s .a = true ∨ hoseNeeds s .b = true) :
    pumpSettle s = s := by
  refine if_neg fun ⟨running, a, b⟩ => ?_
  rcases h with h | h | h
  · exact h running
  · exact Bool.false_ne_true (a.symm.trans h)
  · exact Bool.false_ne_true (b.symm.trans h)

end Times

/-- Settles O52: the settling, the two times, and the answers to a hose that asks. -/
theorem pumpTimes : Obligations.PumpTimes := by
  refine fun s d => ⟨fun hs ha hb => ⟨pumpSettle_runsOn hs ha hb, ?_⟩, pumpSettle_of_needed, ?_,
    fun hp => ⟨exec_runOnTimer hp, fun hd hn => ?_, fun h hd hs hl hw hn hstate => ?_⟩,
    fun h hc total stage hhc htotal hstage => ?_⟩
  · rw [pumpRun_pumpSettle, pumpRun, hs]
    rfl
  · simp [pumpRun]
  · rw [exec_budgetFall hp hd, budgetFalls_idle (by exact hn), fallen]
    simp only [show s.pump.level - 1 = 0 ↔ s.pump.level ≤ 1 by omega, State.reach]
  · rw [exec_budgetFall hp hd, budgetFalls_serves (by exact hs) (by exact hl) (by exact hw) (by exact hn)]
    generalize hu : startPump (fallen d (s.reach d)) = u
    have waits : u.pump.waiting.get h = true := by rw [← hu]; exact hn
    have authorised : (u.hc.get h).state ≠ .proving := by
      rw [← hu]
      exact ne_of_eq_of_ne hstate (by decide)
    have served := (joinHeld_hc u h).trans (if_pos waits)
    refine ⟨_, rfl, ?_, ?_, ?_, ?_, ?_, ?_⟩
    · rw [joinHeld_pump, ← hu]; rfl
    · rw [joinHeld_pump, ← hu]
      show s.pump.level - 1 + 1 = 6
      omega
    · rw [joinHeld_pump]
    · rw [served, joining_joined]
    · rw [served, joining_stage]
      exact openingStage_ne_closed u h
    · rw [served, joining, if_neg authorised, ← hu]
      rfl
  · have opens : joining s.now (openingStage s h) (s.hc.get h) = if hc.state = .proving
        then { hc with joined := true, idleAt := some (s.now + sec 60), stage := stage }
        else { hc with joined := true, noFlowAt := some (s.now + sec 60), stage := stage } := by
      subst hhc
      rw [joining, hstage, htotal, openingStage, slowNow, compareTotal, slowDownOf]
      simp only [decide_eq_true_eq]
    dsimp only
    rw [← opens]
    refine ⟨fun hw => if_pos hw, fun hw => ⟨fun hn => ⟨fun hs => ?_, fun hs => ?_, fun hs hl => ?_⟩,
      pumpRequest_of_budget hw, fun ho hs => ?_⟩⟩
    · rw [pumpRequest_of_running hw hs]
      exact joinHeld_joinPump_alone hn
    · rw [pumpRequest_of_runOn hw hs]
      exact joinHeld_joinPump_alone hn
    · rw [pumpRequest_of_stopped hw hs hl]
      exact joinHeld_joinPump_alone hn
    · obtain ⟨p, running, waiting, requested⟩ := pumpRequest_joins (h := h) hw hs
      rw [requested]
      refine ⟨?_, ?_, ?_, ?_⟩
      · rw [joinHeld_pump, joinPump_set]
        exact running
      · rw [joinHeld_pump]
      · rw [joinHeld_hc, joinPump_set]
        split <;> simp
      · rw [joinHeld_hc, joinPump_set, if_pos (by rw [← ho, ← waiting]), joining_joined]

end Sys2Proof.Machine

/-! The keys and times of a prove before its run (sections 7.2 and 7.3). -/

namespace Sys2Proof.Machine

section Keys
variable {s : State} {h : Hose} {value : Nat}

/-! ### The keys that reach the prove (R129, R130, R133) -/

theorem proveHose_taken (hp : s.prove.phase = .select) (hs : (s.hc.get h).state = .idle) : proveHose h s = { s with
    prove := { s.prove with phase := .size, hose := some h, timerAt := some (s.now + sec 120) },
    hc := s.hc.set h { s.hc.get h with state := .proving } } := by
  unfold proveHose
  rw [if_neg (by simp [hp]), if_pos hs]
  rfl

theorem proveHose_notIdle (hp : s.prove.phase = .select) (hs : (s.hc.get h).state ≠ .idle) :
    proveHose h s = prompt .hoseNotIdle s := by
  unfold proveHose
  rw [if_neg (by simp [hp]), if_neg hs]

theorem enterKey_prove (hd : s.au.digits ≠ []) (hs : (s.hc.get s.pp.selected).state = .proving) :
    enterKey s = proveEnter (entryValue s.au.digits) (emptyEntry s) := by
  unfold enterKey
  dsimp only
  rw [if_neg (by simpa using hd), if_pos hs]

theorem clearKey_prove (hd : s.au.digits = []) (hs : (s.hc.get s.pp.selected).state = .proving) :
    clearKey s = proveClear s := by
  unfold clearKey
  dsimp only
  rw [if_neg (by simp [hd]), hs]

/-! ### ENTER and CLEAR in SIZE and READY (R130) -/

section Size
variable (hp : s.prove.phase = .size ∨ s.prove.phase = .ready)
include hp

theorem proveEnter_size : proveEnter value s =
    if s.pp.authority = false then prompt .supervisorKeyRequired s
    else if value < 1000 ∨ 100000 < value then prompt .vesselSizeOutOfRange s
    else proveReadyTest { s with prove := { s.prove with phase := .ready, vessel := some value } } := by
  unfold proveEnter
  rcases hp with hp | hp <;> rw [hp]

theorem proveEnter_unauthorised (ha : s.pp.authority = false) :
    proveEnter value s = prompt .supervisorKeyRequired s :=
  (proveEnter_size hp).trans (if_pos ha)

theorem proveEnter_vesselOut (ha : s.pp.authority = true) (hv : value < 1000 ∨ 100000 < value) :
    proveEnter value s = prompt .vesselSizeOutOfRange s :=
  (proveEnter_size hp).trans ((if_neg (by simp [ha])).trans (if_pos hv))

theorem proveEnter_vessel (ha : s.pp.authority = true) (hlow : 1000 ≤ value) (hhigh : value ≤ 100000) :
    proveEnter value s
      = proveReadyTest { s with prove := { s.prove with phase := .ready, vessel := some value } } :=
  (proveEnter_size hp).trans ((if_neg (by simp [ha])).trans (if_neg (by omega)))

theorem proveClear_size : proveClear s = proveCancel s := by
  unfold proveClear
  rcases hp with hp | hp <;> rw [hp]

end Size

theorem proveReadyTest_in (hp : s.prove.phase = .ready) (hh : s.prove.hose = some h)
    (hn : (s.hc.get h).nozzleOut = false) : proveReadyTest s = s := by
  unfold proveReadyTest
  rw [hp, hh]
  exact if_neg (by simp [hn])

theorem proveReadyTest_out (hp : s.prove.phase = .ready) (hh : s.prove.hose = some h)
    (hn : (s.hc.get h).nozzleOut = true) : proveReadyTest s = proveRun h s := by
  unfold proveReadyTest
  rw [hp, hh]
  exact if_pos hn

/-! ### The prove ends with no record (R130, R136) -/

theorem leaveProving_proving (hs : (s.hc.get h).state = .proving) : leaveProving h s = s.updHc h Hc.rest := if_pos hs

/-- Before the run SU counts no prove, so its end changes the prove alone. -/
theorem proveNone_uncounted (ha : s.su.proveActive = false) :
    proveNone s = { s with prove := { Prove.initial with factorWrite := s.prove.factorWrite } } := by
  unfold proveNone
  rw [if_neg (by simp [ha])]

theorem proveCancel_hose (ha : s.su.proveActive = false) (hh : s.prove.hose = some h)
    (hs : (s.hc.get h).state = .proving) : proveCancel s = { s with
      prove := { Prove.initial with factorWrite := s.prove.factorWrite },
      hc := s.hc.set h (s.hc.get h).rest } := by
  unfold proveCancel
  rw [hh]
  dsimp only
  rw [leaveProving_proving hs, proveNone_uncounted (by exact ha)]
  rfl

theorem proveCancel_noHose (ha : s.su.proveActive = false) (hh : s.prove.hose = none) : proveCancel s = { s with
    prove := { Prove.initial with factorWrite := s.prove.factorWrite } } := by
  unfold proveCancel
  rw [hh]
  exact proveNone_uncounted ha

end Keys

/-! ### The phase timers (R129, R130, R133) -/

section Timers
variable {s : State} {d : Nat}

theorem phaseDue_of {p : ProvePhase → Bool} (hp : p s.prove.phase = true) : phaseDue s p = s.prove.timerAt :=
  if_pos hp

theorem exec_proveSelectTime (hr : s.power = .released) (hp : s.prove.phase = .select)
    (hd : s.prove.timerAt = some d) : exec .proveSelectTime s = .next (proveCancel (s.reach d)) :=
  live_atDue (due := fun s => phaseDue s (· == .select)) hr ((phaseDue_of (by simp [hp])).trans hd)

theorem exec_proveSizeTime (hr : s.power = .released) (hp : s.prove.phase = .size ∨ s.prove.phase = .ready)
    (hd : s.prove.timerAt = some d) : exec .proveSizeTime s = .next (proveCancel (s.reach d)) :=
  live_atDue (due := fun s => phaseDue s (fun p => p == .size || p == .ready)) hr
    ((phaseDue_of (by simpa using hp)).trans hd)

theorem exec_proveReadingTime (hr : s.power = .released) (hp : s.prove.phase = .reading)
    (hd : s.prove.timerAt = some d) : exec .proveReadingTime s = .next (proveAbandon (s.reach d)) :=
  live_atDue (due := fun s => phaseDue s (· == .reading)) hr ((phaseDue_of (by simp [hp])).trans hd)

end Timers

/-- Settles O53: the HOSE key in SELECT, ENTER and CLEAR in SIZE and READY, and the two times. -/
theorem proveKeysAndTimes : Obligations.ProveKeysAndTimes := by
  intro s num h ha
  refine ⟨fun ht hp hs => ?_, fun ht hp hs => ?_, fun ht hsel hh hs hp => ?_, fun d hr hd => ⟨fun hp hh => ?_,
    fun hp hh hs => ?_⟩⟩
  · exact (exec_message_taken (.hoseKey h) rfl ht).trans (congrArg Host.Outcome.next (proveHose_taken (by exact hp) hs))
  · exact (exec_message_taken (.hoseKey h) rfl ht).trans (congrArg Host.Outcome.next
      (proveHose_notIdle (by exact hp) hs))
  · have enter (hd : s.au.digits ≠ []) : exec (.enter num) s
        = .next (proveEnter (entryValue s.au.digits) (emptyEntry (taken num s))) :=
      (exec_message_taken .enter rfl ht).trans (congrArg Host.Outcome.next (enterKey_prove (by exact hd)
        (by exact hsel ▸ hs)))
    refine ⟨fun hd hauth hlow hhigh hn => ?_, fun hd hauth hv => ?_, fun hd hauth => ?_, fun hd => ?_⟩
    · rw [enter hd, proveEnter_vessel (by exact hp) (by exact hauth) hlow hhigh,
        proveReadyTest_in (h := h) rfl (by exact hh) (by exact hn)]
      rfl
    · rw [enter hd, proveEnter_vesselOut (by exact hp) (by exact hauth) hv]
      rfl
    · rw [enter hd, proveEnter_unauthorised (by exact hp) (by exact hauth)]
      rfl
    · have clear : exec (.clear num) s = .next (proveClear (taken num s)) :=
        (exec_message_taken .clear rfl ht).trans (congrArg Host.Outcome.next (clearKey_prove (by exact hd)
          (by exact hsel ▸ hs)))
      rw [clear, proveClear_size (by exact hp), proveCancel_hose (h := h) (by exact ha) (by exact hh) (by exact hs)]
      rfl
  · rw [exec_proveSelectTime hr hp hd, proveCancel_noHose (by exact ha) (by exact hh)]
    rfl
  · rw [exec_proveSizeTime hr hp hd, proveCancel_hose (h := h) (by exact ha) (by exact hh) (by exact hs)]
    rfl

end Sys2Proof.Machine

/-! The run of a prove, and its reading (sections 7.4 to 7.6). -/

namespace Sys2Proof.Machine

/-! ### The outcome and its record (R134, R135) -/

/-- What the record's number, or its wait for a free slot, makes of the journal and the prove's step. -/
def ProveAsked (u : State) (p : ProveRec) (ju : Ju) (step : RecordStep) : Prop :=
  (0 < u.ju.free → step = .record (u.ju.counter + 1) ∧ ju.counter = u.ju.counter + 1 ∧
    ju.recs = u.ju.recs ++ [JRec.mk (u.ju.counter + 1) u.lc.clock u.lc.sure (.prove p) .opened 0 none]) ∧
  (u.ju.free = 0 → step = .waiting ∧ ju.counter = u.ju.counter ∧ ju.recs = u.ju.recs ∧
    ju.waiting = joinWaiting (.prove p) u.ju.waiting)

theorem takeRecord_frame (body : RecBody) (u : State) :
    takeRecord body u = { u with sc := (takeRecord body u).sc, ju := (takeRecord body u).ju } := by
  obtain ⟨q, c, l, w, frame, -⟩ := writeListAdd_frame (.record (u.ju.counter + 1)) (numberRecord body u)
  unfold takeRecord
  rw [frame]
  rfl

/-- The request for a PROVE record before the warning. -/
theorem requestOrWait_prove {p : ProveRec} {u : State} (hw : u.warned = false) :
    ∃ sc ju step, requestOrWait (.prove p) u
      = { u with prove := { u.prove with step := step }, sc := sc, ju := ju } ∧ ProveAsked u p ju step := by
  rcases Nat.eq_zero_or_pos u.ju.free with full | free
  · rw [requestOrWait_waits hw full]
    exact ⟨_, _, _, rfl, fun free => by omega, fun _ => ⟨rfl, rfl, rfl, rfl⟩⟩
  · rw [requestOrWait_taken hw free]
    refine ⟨(takeRecord (.prove p) u).sc, (takeRecord (.prove p) u).ju, .record (u.ju.counter + 1), ?_,
      fun _ => ⟨rfl, takeRecord_ju_counter .., takeRecord_ju_recs ..⟩, fun full => by omega⟩
    show { takeRecord (.prove p) u with
      prove := { (takeRecord (.prove p) u).prove with step := .record (u.ju.counter + 1) } } = _
    rw [takeRecord_prove, takeRecord_frame]

/-- The outcome lets the hose go and asks for the record. -/
theorem proveOutcome_frame {u : State} {h : Hose} {o : ProveOutcome} {band : Option Nat} {oldF newF shown : Nat}
    {vp : Option Nat} {vm : Nat} (hh : u.prove.hose = some h) (hs : (u.hc.get h).state = .proving)
    (hw : u.warned = false) (hm : (u.prove.summary.map Summary.gross).getD 0 = vm) :
    ∃ sc ju step, proveOutcome o band oldF newF shown vp u = { u with
      prove := { u.prove with
        phase := .recording, outcome := some o, band := band, oldF := oldF, newF := newF, vp := vp,
        timerAt := none, step := step },
      hc := u.hc.set h { (u.hc.get h).rest with proveShown := some (o, oldF, shown) }, sc := sc, ju := ju } ∧
    ProveAsked u { hose := h, band := band, oldF := oldF, newF := newF, vm := vm, vp := vp, outcome := o,
                   supervisor := u.prove.supervisor } ju step := by
  have hose : u.prove.hose.getD .a = h := by rw [hh]; rfl
  obtain ⟨sc, ju, step, asked, recorded⟩ := requestOrWait_prove (u := { u with
      prove := { u.prove with
        phase := .recording, outcome := some o, band := band, oldF := oldF, newF := newF, vp := vp,
        timerAt := none },
      hc := u.hc.set h { (u.hc.get h).rest with proveShown := some (o, oldF, shown) } })
    (p := { hose := h, band := band, oldF := oldF, newF := newF, vm := vm, vp := vp, outcome := o,
            supervisor := u.prove.supervisor }) hw
  refine ⟨sc, ju, step, Eq.trans ?_ asked, recorded⟩
  unfold proveOutcome
  dsimp only
  rw [hose, leaveProving_proving (by exact hs)]
  simp only [State.updHc, Two.get_set_self, Two.set_set, hm]

/-- The prove in RECORDING with its outcome shown, its hose let go, and its record taken or waiting. -/
def ProveRecorded (s : State) (h : Hose) (p : ProveRec) (shown : Nat) (t : State) : Prop :=
  t.prove.phase = .recording ∧ t.prove.outcome = some p.outcome ∧ t.prove.band = p.band ∧
  t.prove.oldF = p.oldF ∧ t.prove.newF = p.newF ∧ t.prove.vp = p.vp ∧ t.prove.timerAt = none ∧
  (t.hc.get h).state = restState (s.hc.get h).nozzleOut ∧
  (t.hc.get h).proveShown = some (p.outcome, p.oldF, shown) ∧ t.hc.get h.other = s.hc.get h.other ∧
  (0 < s.ju.free → t.prove.step = .record (s.ju.counter + 1) ∧ t.ju.counter = s.ju.counter + 1 ∧
    t.ju.recs = s.ju.recs
      ++ [JRec.mk (s.ju.counter + 1) s.lc.clock s.lc.sure (.prove p) .opened 0 none]) ∧
  (s.ju.free = 0 → t.prove.step = .waiting ∧ t.ju.counter = s.ju.counter ∧ t.ju.recs = s.ju.recs ∧
    t.ju.waiting = joinWaiting (.prove p) s.ju.waiting)

/-- What the outcome of a prove leaves as it was. -/
structure ProveKept (u t : State) : Prop where
  now : t.now = u.now
  su : t.su = u.su
  mu : t.mu = u.mu
  summary : t.prove.summary = u.prove.summary
  factors : t.prove.factors = u.prove.factors
  endCause : t.prove.endCause = u.prove.endCause

/-- The outcome of a prove whose journal and clock are those of an earlier state. -/
theorem proveOutcome_recorded {s u : State} {h : Hose} {p : ProveRec} {shown : Nat}
    (hh : u.prove.hose = some h) (hs : (u.hc.get h).state = .proving) (hw : u.warned = false)
    (hju : u.ju = s.ju) (hlc : u.lc = s.lc) (hout : (u.hc.get h).nozzleOut = (s.hc.get h).nozzleOut)
    (hother : u.hc.get h.other = s.hc.get h.other) (hp : p.hose = h ∧ p.supervisor = u.prove.supervisor ∧
      p.vm = (u.prove.summary.map Summary.gross).getD 0) :
    let t := proveOutcome p.outcome p.band p.oldF p.newF shown p.vp u
    ProveKept u t ∧ ProveRecorded s h p shown t := by
  obtain ⟨hose, band, oldF, newF, vm, vp, o, supervisor⟩ := p
  obtain ⟨rfl, rfl, rfl⟩ := hp
  obtain ⟨sc, ju, step, recorded, asked⟩ := proveOutcome_frame (o := o) (band := band) (oldF := oldF) (newF := newF)
    (shown := shown) (vp := vp) hh hs hw rfl
  unfold ProveAsked at asked
  rw [hju, hlc] at asked
  dsimp only
  rw [recorded]
  refine ⟨⟨rfl, rfl, rfl, rfl, rfl, rfl⟩, rfl, rfl, rfl, rfl, rfl, rfl, rfl, ?_, ?_, ?_, asked⟩
  · simp [Hc.rest, Hc.discard, hout]
  · simp
  · simp [hother]

/-! ### The prove abandoned, or its reading judged (R133, R136) -/

section Reading
variable {u : State} {sum : Summary}

theorem proveAbandon_noPulses (hm : u.prove.summary = some sum) (hn : pulseTotal sum.pulses = 0) :
    proveAbandon u = proveOutcome .abandoned none 0 0 0 none u := by
  unfold proveAbandon
  rw [hm]
  exact if_pos hn

theorem proveAbandon_pulses (hm : u.prove.summary = some sum) (hn : pulseTotal sum.pulses ≠ 0) :
    proveAbandon u = proveOutcome .abandoned (some (proveBand sum.pulses))
      (u.prove.factors.get (proveBand sum.pulses)) (u.prove.factors.get (proveBand sum.pulses))
      (u.prove.factors.get (proveBand sum.pulses)) none u := by
  unfold proveAbandon
  rw [hm]
  exact if_neg hn

theorem proveReading_judged {vp : Nat} (hm : u.prove.summary = some sum) : proveReading vp u
    = (let j := judgeProve sum.pulses u.prove.factors sum.gross vp
       proveOutcome j.1 (some (proveBand sum.pulses)) j.2.1 j.2.2 (shownFactor j.1 j.2.1 vp sum.gross)
         (some vp) u) := by
  unfold proveReading
  rw [hm]
  rfl

theorem proveEnter_reading {vp : Nat} (hp : u.prove.phase = .reading) (ha : u.pp.authority = true) (hlow : 1 ≤ vp)
    (hhigh : vp ≤ 110000) : proveEnter vp u = proveReading vp u := by
  unfold proveEnter
  rw [hp]
  exact (if_neg (by simp [ha])).trans (if_neg (by omega))

theorem proveClear_reading (hp : u.prove.phase = .reading) : proveClear u = proveAbandon u := by
  unfold proveClear
  rw [hp]

end Reading

/-! ### The hand-over at the end of the drain (R132) -/

section HandOver
variable {s : State} {h : Hose} {m : MuDispense}

theorem muClose_prove (hd : (s.mu.get h).dispense = some m) (hb : m.isProve = true) :
    muClose h s = (some m.summary, s.updMu h (fun mu => { mu with dispense := none })) := by
  unfold muClose
  rw [hd]
  exact if_pos hb

theorem proveHandOver_eq (hd : (s.mu.get h).dispense = some m) (hb : m.isProve = true) :
    ∃ pump, proveHandOver h s = { s with
      mu := s.mu.set h { s.mu.get h with dispense := none },
      hc := s.hc.set h { s.hc.get h with drainAt := none, drainLimitAt := none, joined := false },
      prove := { s.prove with
        phase := .reading, endCause := (s.hc.get h).endCause, summary := some m.summary, factors := m.factors,
        timerAt := some (s.now + sec 300) },
      pump := pump } := by
  have factors : openFactors s h = m.factors := by
    unfold openFactors
    rw [hd]
  unfold proveHandOver
  rw [muClose_prove hd hb, pumpSettle_eq, factors]
  exact ⟨_, rfl⟩

theorem proveClose_reading {t : State} {c : EndCause} (ht : proveHandOver h s = t)
    (hc : t.prove.endCause = some c) (hpower : c ≠ .powerFail) (hfault : c ≠ .meterFault)
    (hm : t.prove.summary = some m.summary) (hn : pulseTotal m.pulses ≠ 0) : proveClose h s = t := by
  unfold proveClose
  rw [ht]
  dsimp only
  rw [if_neg (by simp [hc, hpower]), if_neg]
  rintro (fault | none)
  · exact hfault (Option.some.inj (hc.symm.trans fault))
  · rw [hm] at none
    exact hn none

theorem proveClose_abandoned {t : State} {c : EndCause} (ht : proveHandOver h s = t)
    (hc : t.prove.endCause = some c) (hpower : c ≠ .powerFail) (hm : t.prove.summary = some m.summary)
    (hn : c = .meterFault ∨ pulseTotal m.pulses = 0) : proveClose h s = proveAbandon t := by
  unfold proveClose
  rw [ht]
  dsimp only
  rw [if_neg (by simp [hc, hpower]), if_pos]
  rcases hn with fault | none
  · exact .inl (hc.trans (congrArg some fault))
  · rw [hm]
    exact .inr none

end HandOver

/-! ### The run begins (R131, R137) -/

/-- The prove in RUN: its meter open, the vessel size its limit, the pump joined or waited for. -/
def ProveRuns (s : State) (h : Hose) (v : Nat) (t : State) : Prop :=
  t.prove.phase = .run ∧ t.prove.timerAt = none ∧ t.prove.vessel = some v ∧ t.su.proveActive = true ∧
  (t.mu.get h).dispense = some ((s.mu.get h).opening true) ∧ (t.hc.get h).limit = some v ∧
  (t.hc.get h).endCause = none ∧ (t.hc.get h).state = .proving ∧ t.ju = s.ju ∧
  (s.pump.state = .running → s.pump.waiting = Two.both false →
    t.pump = s.pump ∧ (t.hc.get h).joined = true ∧ (t.hc.get h).idleAt = some (s.now + sec 60) ∧
    (t.hc.get h).stage = (if v ≤ slowDownOf s h then .slow else .full)) ∧
  (s.pump.state = .stopped → 6 ≤ s.pump.level →
    t.pump = { s.pump with waiting := s.pump.waiting.set h true } ∧ (t.hc.get h).joined = false ∧
    (t.hc.get h).stage = .closed)

theorem joinHeld_joinPump_of_none {u : State} {h : Hose} (hn : u.pump.waiting = Two.both false) :
    joinHeld (joinPump h u) = { u with hc := u.hc.set h (joining u.now (openingStage u h) (u.hc.get h)) } :=
  joinHeld_joinPump_alone (p := u.pump) hn

section Run
variable {s : State} {h : Hose} {v : Nat}

/-- The state from which the run asks for the pump. -/
def runReady (s : State) (h : Hose) : State := { s with
  prove := { s.prove with phase := .run, timerAt := none },
  su := { s.su with proveActive := true },
  mu := s.mu.set h { s.mu.get h with dispense := some ((s.mu.get h).opening true) },
  hc := s.hc.set h { (s.hc.get h).discard with limit := s.prove.vessel } }

theorem muOpen_of_none {prove : Bool} (hd : (s.mu.get h).dispense = none) : muOpen h prove s
    = { s with mu := s.mu.set h { s.mu.get h with dispense := some ((s.mu.get h).opening prove) } } := by
  unfold muOpen State.updMu
  dsimp only
  rw [hd]

theorem proveRun_eq (hd : (s.mu.get h).dispense = none) :
    proveRun h s = pumpRequest h (runReady s h) := by
  unfold proveRun
  dsimp only
  rw [muOpen_of_none (by exact hd)]
  rfl

/-- Nothing is metered yet, so the stage opens by the vessel size alone. -/
theorem openingStage_runReady (hv : s.prove.vessel = some v)
    (hs : (s.hc.get h).state = .proving) :
    openingStage (runReady s h) h = if v ≤ slowDownOf s h then .slow else .full := by
  have slow : slowNow v (slowDownOf s h) 0 = decide (v ≤ slowDownOf s h) := by
    unfold slowNow
    exact decide_eq_decide.2 (by omega)
  have total : compareTotal (runReady s h) h = 0 := by
    simp [compareTotal, runReady, Hc.discard, hs, grossTotal, Mu.opening]
  have near : (((runReady s h).hc.get h).limit.getD 0) = v := by simp [runReady, hv]
  have free : ((runReady s h).hc.get h).forcedSlow = false := by simp [runReady, Hc.discard]
  unfold openingStage
  rw [total, near, free, show slowDownOf (runReady s h) h = slowDownOf s h from rfl, slow]
  simp

theorem proveRun_runs (hw : s.warned = false) (hd : (s.mu.get h).dispense = none) (hv : s.prove.vessel = some v)
    (hs : (s.hc.get h).state = .proving) : ProveRuns s h v (proveRun h s) := by
  have warned : (runReady s h).warned = false := hw
  rw [proveRun_eq hd]
  obtain ⟨outside, joins⟩ := pumpRequest_joinsAll h (runReady s h)
  obtain ⟨stage, joined, noFlowAt, idleAt, joins⟩ := joins h
  rw [show (runReady s h).hc.get h = { (s.hc.get h).discard with limit := s.prove.vessel } from
    Two.get_set_self _ _ _] at joins
  refine ⟨?_, ?_, ?_, ?_, ?_, ?_, ?_, ?_, ?_, fun hr hn => ?_, fun hp hl => ?_⟩
  · rw [outside]; rfl
  · rw [outside]; rfl
  · rw [outside]; exact hv
  · rw [outside]; rfl
  · rw [outside]; exact congrArg Mu.dispense (Two.get_set_self _ _ _)
  · rw [joins]; exact hv
  · rw [joins]; rfl
  · rw [joins]; exact hs
  · rw [outside]; rfl
  · have proving : ((runReady s h).hc.get h).state = .proving := by simpa [runReady, Hc.discard] using hs
    have staged := openingStage_runReady hv hs
    have now : (runReady s h).now = s.now := rfl
    have pump : (runReady s h).pump = s.pump := rfl
    rw [← pump] at hr hn
    rw [← pump, ← now, ← staged]
    generalize runReady s h = u at *
    rw [pumpRequest_of_running warned hr, joinHeld_joinPump_of_none hn, joining, if_pos proving]
    simp
  · rw [pumpRequest_of_budget (by exact hw) (by exact hp) (by exact hl)]
    exact ⟨rfl, congrArg Hc.joined (Two.get_set_self _ _ _), congrArg Hc.stage (Two.get_set_self _ _ _)⟩

end Run

end Sys2Proof.Machine

/-! A prove from its vessel to its outcome (sections 7.3 to 7.6). -/

namespace Sys2Proof.Machine

section Prove
variable {s : State} {h : Hose} {num : Byte} {d v : Nat}

/-! ### The run begins (R130) -/

theorem lifted_proving (hs : (s.hc.get h).state = .proving) (hh : s.prove.hose = some h) : lifted h s
    = proveReadyTest { s with
        pp := { s.pp with selected := h }, hc := s.hc.set h { s.hc.get h with nozzleOut := true } } := by
  unfold lifted
  rw [hs]
  exact if_pos hh

theorem lift_runs (hp : s.power = .released) (hh : s.prove.hose = some h) (hs : (s.hc.get h).state = .proving)
    (hw : s.warned = false) (hd : (s.mu.get h).dispense = none) (hready : s.prove.phase = .ready)
    (hv : s.prove.vessel = some v) (hn : (s.hc.get h).nozzleOut = false) :
    ∃ t : State, exec (.nozzleLift h) s = .next t ∧ ProveRuns s h v t := by
  refine ⟨_, exec_nozzleLift hp hn, ?_⟩
  rw [lifted_proving hs hh, proveReadyTest_out (h := h) (by exact hready) (by exact hh) (by simp)]
  exact proveRun_runs (s := { s with
    pp := { s.pp with selected := h }, hc := s.hc.set h { s.hc.get h with nozzleOut := true } })
    hw hd hv (by simpa using hs)

/-- ENTER for the prove's hose. -/
theorem exec_enter_prove (ht : Takes s num) (hsel : s.pp.selected = h) (hs : (s.hc.get h).state = .proving)
    (hd : s.au.digits ≠ []) : exec (.enter num) s
      = .next (proveEnter (entryValue s.au.digits) (emptyEntry (taken num s))) :=
  (exec_message_taken .enter rfl ht).trans (congrArg Host.Outcome.next (enterKey_prove (by exact hd)
    (by exact hsel ▸ hs)))

/-- CLEAR with an empty entry for the prove's hose. -/
theorem exec_clear_prove (ht : Takes s num) (hsel : s.pp.selected = h) (hs : (s.hc.get h).state = .proving)
    (hd : s.au.digits = []) : exec (.clear num) s = .next (proveClear (taken num s)) :=
  (exec_message_taken .clear rfl ht).trans (congrArg Host.Outcome.next (clearKey_prove (by exact hd)
    (by exact hsel ▸ hs)))

theorem enter_runs (hh : s.prove.hose = some h) (hs : (s.hc.get h).state = .proving) (ht : Takes s num)
    (hw : s.warned = false) (hd : (s.mu.get h).dispense = none) (hsel : s.pp.selected = h)
    (ha : s.pp.authority = true) (hp : s.prove.phase = .size ∨ s.prove.phase = .ready) (hdig : s.au.digits ≠ [])
    (hlow : 1000 ≤ entryValue s.au.digits) (hhigh : entryValue s.au.digits ≤ 100000)
    (ho : (s.hc.get h).nozzleOut = true) :
    ∃ t : State, exec (.enter num) s = .next t ∧ ProveRuns s h (entryValue s.au.digits) t := by
  refine ⟨_, exec_enter_prove ht hsel hs hdig, ?_⟩
  rw [proveEnter_vessel (by exact hp) (by exact ha) hlow hhigh, proveReadyTest_out (h := h) rfl (by exact hh)
    (by exact ho)]
  exact proveRun_runs (s := { emptyEntry (taken num s) with
    prove := { s.prove with phase := .ready, vessel := some (entryValue s.au.digits) } }) hw hd rfl hs

/-! ### The end of the drain (R132) -/

theorem drain_closes (hp : s.power = .released) (hh : s.prove.hose = some h) (hs : (s.hc.get h).state = .proving)
    {i : Instr} {m : MuDispense} {c : EndCause}
    (hi : i = .drainEnd h ∧ (s.hc.get h).drainAt = some d ∨
      i = .drainTimeLimit h ∧ (s.hc.get h).drainLimitAt = some d)
    (hd : (s.mu.get h).dispense = some m) (hb : m.isProve = true)
    (hc : (s.hc.get h).endCause = some c) (hpower : c ≠ .powerFail) (hw : s.warned = false) :
    ∃ t : State, exec i s = .next t ∧ t.now = max s.now d ∧ (t.mu.get h).dispense = none ∧
      t.prove.summary = some m.summary ∧ t.prove.factors = m.factors ∧ t.prove.endCause = some c ∧ t.su = s.su ∧
      (c ≠ .meterFault → pulseTotal m.pulses ≠ 0 →
        t.prove.phase = .reading ∧ t.prove.timerAt = some (max s.now d + sec 300) ∧
        (t.hc.get h).state = .proving ∧ (t.hc.get h).joined = false ∧ t.ju = s.ju) ∧
      (pulseTotal m.pulses = 0 → ProveRecorded s h
        { hose := h, band := none, oldF := 0, newF := 0, vm := roundClNat m.gross, vp := none,
          outcome := .abandoned, supervisor := s.prove.supervisor } 0 t) ∧
      (c = .meterFault → pulseTotal m.pulses ≠ 0 →
        let f := m.factors.get (proveBand m.pulses)
        ProveRecorded s h
          { hose := h, band := some (proveBand m.pulses), oldF := f, newF := f, vm := roundClNat m.gross,
            vp := none, outcome := .abandoned, supervisor := s.prove.supervisor } f t) := by
  obtain ⟨alarm, -, ran⟩ := exec_drainTimes hp hi
  rw [drained_proving (by simpa using hs)] at ran
  obtain ⟨pump, handed⟩ := proveHandOver_eq (s := drainedState s h (max s.now d) alarm) hd hb
  generalize hu : proveHandOver h (drainedState s h (max s.now d) alarm) = u at handed
  have cause : u.prove.endCause = some c := by rw [handed]; simpa [drainedState] using hc
  have hose : u.prove.hose = some h := by rw [handed]; exact hh
  have proving : (u.hc.get h).state = .proving := by rw [handed]; simpa [drainedState] using hs
  have nozzle : (u.hc.get h).nozzleOut = (s.hc.get h).nozzleOut := by rw [handed]; simp [drainedState]
  have other : u.hc.get h.other = s.hc.get h.other := by rw [handed]; simp [drainedState]
  have joined : (u.hc.get h).joined = false := by rw [handed]; simp
  have summary : u.prove.summary = some m.summary := by rw [handed]
  have warned : u.warned = false := by rw [handed]; exact hw
  have now : u.now = max s.now d := by rw [handed]; rfl
  have meter : (u.mu.get h).dispense = none := by rw [handed]; exact congrArg Mu.dispense (Two.get_set_self _ _ _)
  have factors : u.prove.factors = m.factors := by rw [handed]
  have su : u.su = s.su := by rw [handed]; rfl
  have ju : u.ju = s.ju := by rw [handed]; rfl
  have lc : u.lc = s.lc := by rw [handed]; rfl
  have supervisor : u.prove.supervisor = s.prove.supervisor := by rw [handed]; rfl
  suffices ends : ∃ t, proveClose h (drainedState s h (max s.now d) alarm) = t ∧ ProveKept u t ∧
      (c ≠ .meterFault → pulseTotal m.pulses ≠ 0 → t = u) ∧
      (pulseTotal m.pulses = 0 → ProveRecorded s h
        { hose := h, band := none, oldF := 0, newF := 0, vm := roundClNat m.gross, vp := none,
          outcome := .abandoned, supervisor := s.prove.supervisor } 0 t) ∧
      (c = .meterFault → pulseTotal m.pulses ≠ 0 →
        let f := m.factors.get (proveBand m.pulses)
        ProveRecorded s h
          { hose := h, band := some (proveBand m.pulses), oldF := f, newF := f, vm := roundClNat m.gross,
            vp := none, outcome := .abandoned, supervisor := s.prove.supervisor } f t) by
    obtain ⟨t, closed, kept, reading, empty, fault⟩ := ends
    refine ⟨t, ran.trans (congrArg Host.Outcome.next closed), kept.now.trans now,
      (congrArg (fun mu => (mu.get h).dispense) kept.mu).trans meter, kept.summary.trans summary,
      kept.factors.trans factors, kept.endCause.trans cause, kept.su.trans su, fun hc hn => ?_, empty, fault⟩
    rw [reading hc hn]
    exact ⟨by rw [handed], by rw [handed]; rfl, proving, joined, ju⟩
  have abandoned (hn : c = .meterFault ∨ pulseTotal m.pulses = 0) :=
    proveClose_abandoned hu cause hpower summary hn
  by_cases empty : pulseTotal m.pulses = 0
  · refine ⟨_, (abandoned (.inr empty)).trans (proveAbandon_noPulses summary empty), ?_⟩
    obtain ⟨kept, recorded⟩ := proveOutcome_recorded (s := s) (u := u) (h := h) (shown := 0)
      (p := { hose := h, band := none, oldF := 0, newF := 0, vm := roundClNat m.gross, vp := none,
              outcome := .abandoned, supervisor := s.prove.supervisor })
      hose proving warned ju lc nozzle other ⟨rfl, supervisor.symm, by rw [summary]; rfl⟩
    exact ⟨kept, fun _ hn => (hn empty).elim, fun _ => recorded, fun _ hn => (hn empty).elim⟩
  · by_cases fault : c = .meterFault
    · refine ⟨_, (abandoned (.inl fault)).trans (proveAbandon_pulses summary empty), ?_⟩
      rw [factors]
      obtain ⟨kept, recorded⟩ := proveOutcome_recorded (s := s) (u := u) (h := h)
        (shown := m.factors.get (proveBand m.pulses))
        (p := { hose := h, band := some (proveBand m.pulses), oldF := m.factors.get (proveBand m.pulses),
                newF := m.factors.get (proveBand m.pulses), vm := roundClNat m.gross, vp := none,
                outcome := .abandoned, supervisor := s.prove.supervisor })
        hose proving warned ju lc nozzle other ⟨rfl, supervisor.symm, by rw [summary]; rfl⟩
      exact ⟨kept, fun hn _ => (hn fault).elim, fun hn => (empty hn).elim, fun _ _ => recorded⟩
    · exact ⟨u, proveClose_reading hu cause hpower fault summary empty, ⟨rfl, rfl, rfl, rfl, rfl, rfl⟩,
        fun _ _ => rfl, fun hn => (empty hn).elim, fun hn => (fault hn).elim⟩

/-! ### The reading (R133, R134, R136) -/

/-- A reading of a prove that has its summary, and the end without one. -/
theorem reading_recorded {s : State} {u : State} {sum : Summary} (hu : u.prove = s.prove) (hus : u.su = s.su)
    (hh : s.prove.hose = some h) (hs : (u.hc.get h).state = .proving) (hw : u.warned = false) (hju : u.ju = s.ju)
    (hlc : u.lc = s.lc) (hhc : u.hc = s.hc) (hm : s.prove.summary = some sum) (hn : pulseTotal sum.pulses ≠ 0) :
    (∀ vp, let j := judgeProve sum.pulses s.prove.factors sum.gross vp
      (proveReading vp u).su = s.su ∧ ProveRecorded s h
        { hose := h, band := some (proveBand sum.pulses), oldF := j.2.1, newF := j.2.2, vm := sum.gross,
          vp := some vp, outcome := j.1, supervisor := s.prove.supervisor }
        (shownFactor j.1 j.2.1 vp sum.gross) (proveReading vp u)) ∧
    (let f := s.prove.factors.get (proveBand sum.pulses)
     (proveAbandon u).now = u.now ∧ (proveAbandon u).su = s.su ∧ ProveRecorded s h
        { hose := h, band := some (proveBand sum.pulses), oldF := f, newF := f, vm := sum.gross, vp := none,
          outcome := .abandoned, supervisor := s.prove.supervisor } f (proveAbandon u)) := by
  have summary : u.prove.summary = some sum := by rw [hu]; exact hm
  have outcome (p : ProveRec) (shown : Nat) (hp : p.hose = h ∧ p.supervisor = s.prove.supervisor ∧ p.vm = sum.gross) :=
    proveOutcome_recorded (s := s) (u := u) (h := h) (p := p) (shown := shown) (by rw [hu]; exact hh) hs hw hju hlc
      (by rw [hhc]) (by rw [hhc]) ⟨hp.1, by rw [hu]; exact hp.2.1, by rw [summary]; exact hp.2.2⟩
  refine ⟨fun vp => ?_, ?_⟩
  · rw [proveReading_judged summary, hu]
    obtain ⟨kept, recorded⟩ := outcome
      { hose := h, band := some (proveBand sum.pulses),
        oldF := (judgeProve sum.pulses s.prove.factors sum.gross vp).2.1,
        newF := (judgeProve sum.pulses s.prove.factors sum.gross vp).2.2, vm := sum.gross,
        vp := some vp, outcome := (judgeProve sum.pulses s.prove.factors sum.gross vp).1,
        supervisor := s.prove.supervisor } (shownFactor (judgeProve sum.pulses s.prove.factors sum.gross vp).1
          (judgeProve sum.pulses s.prove.factors sum.gross vp).2.1 vp sum.gross) ⟨rfl, rfl, rfl⟩
    exact ⟨kept.su.trans hus, recorded⟩
  · rw [proveAbandon_pulses summary hn, hu]
    obtain ⟨kept, recorded⟩ := outcome
      { hose := h, band := some (proveBand sum.pulses), oldF := s.prove.factors.get (proveBand sum.pulses),
        newF := s.prove.factors.get (proveBand sum.pulses), vm := sum.gross, vp := none, outcome := .abandoned,
        supervisor := s.prove.supervisor } (s.prove.factors.get (proveBand sum.pulses)) ⟨rfl, rfl, rfl⟩
    exact ⟨kept.now, kept.su.trans hus, recorded⟩

end Prove

/-- Settles O54: the run's two beginnings, the end of its drain, and the three ends of READING. -/
theorem proveRunAndReading : Obligations.ProveRunAndReading := by
  intro s num h d hp hh hs
  refine ⟨fun v hw hd hready hv hn => lift_runs hp hh hs hw hd hready hv hn,
    fun ht hw hd hsel ha hphase hdig hlow hhigh ho =>
      enter_runs hh hs ht hw hd hsel ha hphase hdig hlow hhigh ho,
    fun i m c hi hphase hd hb hc hpower hw => drain_closes hp hh hs hi hd hb hc hpower hw,
    fun sum hphase hm hn hw => ⟨fun ht hsel ha hdig hlow hhigh => ?_, fun ht hsel hdig => ?_, fun hd => ?_⟩⟩
  · obtain ⟨read, -⟩ := reading_recorded (s := s) (u := emptyEntry (taken num s)) rfl rfl hh hs hw rfl rfl rfl hm hn
    refine ⟨_, (exec_enter_prove ht hsel hs hdig).trans (congrArg Host.Outcome.next
      (proveEnter_reading (by exact hphase) (by exact ha) hlow hhigh)), read _⟩
  · obtain ⟨-, -, dropped⟩ := reading_recorded (s := s) (u := taken num s) rfl rfl hh hs hw rfl rfl rfl hm hn
    exact ⟨_, (exec_clear_prove ht hsel hs hdig).trans (congrArg Host.Outcome.next
      (proveClear_reading (by exact hphase))), dropped⟩
  · obtain ⟨-, dropped⟩ := reading_recorded (s := s) (u := s.reach d) rfl rfl hh hs hw rfl rfl rfl hm hn
    exact ⟨_, exec_proveReadingTime hp hphase hd, dropped⟩

end Sys2Proof.Machine

/-! How a prove is judged (section 7.5). -/

namespace Sys2Proof.Machine

/-- The count of the chosen band is the largest of the four. -/
theorem get_proveBand (q : Quad Nat) :
    q.b1 ≤ q.get (proveBand q) ∧ q.b2 ≤ q.get (proveBand q) ∧ q.b3 ≤ q.get (proveBand q) ∧
      q.b4 ≤ q.get (proveBand q) := by
  unfold proveBand
  split
  · show q.b1 ≤ q.b1 ∧ q.b2 ≤ q.b1 ∧ q.b3 ≤ q.b1 ∧ q.b4 ≤ q.b1
    omega
  · split
    · show q.b1 ≤ q.b2 ∧ q.b2 ≤ q.b2 ∧ q.b3 ≤ q.b2 ∧ q.b4 ≤ q.b2
      omega
    · split
      · show q.b1 ≤ q.b3 ∧ q.b2 ≤ q.b3 ∧ q.b3 ≤ q.b3 ∧ q.b4 ≤ q.b3
        omega
      · show q.b1 ≤ q.b4 ∧ q.b2 ≤ q.b4 ∧ q.b3 ≤ q.b4 ∧ q.b4 ≤ q.b4
        omega

theorem get_le_get_proveBand (q : Quad Nat) {b : Nat} (hb : b ∈ [1, 2, 3, 4]) : q.get b ≤ q.get (proveBand q) := by
  obtain ⟨one, two, three, four⟩ := get_proveBand q
  simp only [List.mem_cons, List.not_mem_nil, or_false] at hb
  rcases hb with rfl | rfl | rfl | rfl
  · exact one
  · exact two
  · exact three
  · exact four

section Judged
variable {pulses factors : Quad Nat} {vm vp : Nat}

theorem judgeProve_unsteady
    (h : vm = 0 ∨ pulses.get (proveBand pulses) * 100 < pulseTotal pulses * 80) :
    judgeProve pulses factors vm vp
      = (.unsteady, factors.get (proveBand pulses), factors.get (proveBand pulses)) := if_pos h

theorem judgeProve_steady (hv : 0 < vm)
    (h : pulseTotal pulses * 80 ≤ pulses.get (proveBand pulses) * 100) :
    judgeProve pulses factors vm vp =
      if correctionOut (factors.get (proveBand pulses)) (correctedFactor (factors.get (proveBand pulses)) vp vm)
      then (.outOfRange, factors.get (proveBand pulses), factors.get (proveBand pulses))
      else (.accepted, factors.get (proveBand pulses), correctedFactor (factors.get (proveBand pulses)) vp vm) :=
  if_neg (by omega)

/-- The correction is out when F′ leaves its range or differs from F by more than 2 %. -/
theorem correctionOut_iff {f f' : Nat} : correctionOut f f' = true ↔
    f' < 95000 ∨ 105000 < f' ∨ f < 50 * (max f f' - min f f') := by
  have distance : f' - f + (f - f') = max f f' - min f f' := by omega
  unfold correctionOut
  rw [distance]
  simp only [Bool.or_eq_true, decide_eq_true_eq]
  tauto

end Judged

/-- Settles O55: the band, and the outcome by the share of its pulses and the correction. -/
theorem proveIsJudged : Obligations.ProveIsJudged := by
  rintro pulses factors vm vp f rfl
  refine ⟨fun b hb => get_le_get_proveBand pulses hb, judgeProve_unsteady, fun hv hshare =>
    ⟨fun hlow hhigh hnear => ?_, fun out => ?_⟩⟩
  · exact (judgeProve_steady hv hshare).trans (if_neg fun out => by
      rcases correctionOut_iff.1 out with h | h | h
      · exact absurd hlow (Nat.not_le.2 h)
      · exact absurd hhigh (Nat.not_le.2 h)
      · exact absurd hnear (Nat.not_le.2 h))
  · exact (judgeProve_steady hv hshare).trans (if_pos (correctionOut_iff.2 out))

end Sys2Proof.Machine

/-! The gauge and the stock check (sections 9.2 and 9.4). -/

namespace Sys2Proof.Machine

/-! ### A request after a record's keeps the record's entry (R152, R201) -/

section Kept
variable {s : State} {r : Requester} {e : WriteEntry}

/-- A kick changes the journal only when a write is under way after it. -/
theorem scKick_ju_or (s : State) : (scKick s).ju = s.ju ∨ (scKick s).sc.current ≠ none := by
  unfold scKick
  split
  · exact .inr (by simp)
  · exact .inl rfl

theorem scAsk_ju_or (r : Requester) (s : State) : (scAsk r s).ju = s.ju ∨ (scAsk r s).sc.current ≠ none := by
  unfold scAsk
  split
  · exact .inl rfl
  · exact scKick_ju_or _

theorem askJournal_ju_or (s : State) : (askJournal s).ju = s.ju ∨ (askJournal s).sc.current ≠ none := by
  unfold askJournal
  split
  · exact .inl rfl
  · exact scAsk_ju_or .ju s

/-- While a write is under way a request changes nothing of the journal. -/
theorem scAsk_ju_of_current (hc : s.sc.current ≠ none) : (scAsk r s).ju = s.ju := by
  obtain ⟨c, hc⟩ := Option.ne_none_iff_exists'.1 hc
  cases hq : s.sc.queue.contains r with
  | true => rw [scAsk_waiting s hq]
  | false => rw [scAsk_busy s hc hq]

theorem scAsk_writes (he : e ∈ s.ju.writeList) :
    e ∈ (scAsk r s).ju.writeList ∨ (scAsk r s).ju.writing.map Prod.fst = some e := by
  unfold scAsk
  split
  · exact .inl he
  · exact scKick_writes (by exact he)

/-- SU's request leaves the journal, or the entry on its list or being written. -/
theorem askStock_writes (he : e ∈ s.ju.writeList) :
    e ∈ (askStock s).ju.writeList ∨ (askStock s).ju.writing.map Prod.fst = some e := by
  unfold askStock
  split
  · exact .inl he
  · exact scAsk_writes he

theorem askStock_ju_of_current (hc : s.sc.current ≠ none) : (askStock s).ju = s.ju := by
  unfold askStock
  split
  · rfl
  · exact scAsk_ju_of_current hc

theorem mem_writeList_added (e : WriteEntry) (l : List WriteEntry) : e ∈ if l.contains e then l else l ++ [e] := by
  split
  · next h => simpa using h
  · simp

/-- After a new entry, either it still waits or a write is under way. -/
theorem writeListAdd_waits_or (e : WriteEntry) (s : State) :
    e ∈ (writeListAdd e s).ju.writeList ∨ (writeListAdd e s).sc.current ≠ none := by
  unfold writeListAdd
  rcases askJournal_ju_or { s with ju := { s.ju with
    writeList := if s.ju.writeList.contains e then s.ju.writeList else s.ju.writeList ++ [e] } } with same | busy
  · rw [same]
    exact .inl (mem_writeList_added e s.ju.writeList)
  · exact .inr busy

/-- A stock write asked for after a new entry, with SU changed between, leaves the entry to be written. -/
theorem askStockIf_writes (b : Bool) {u : State} (hju : u.ju = (writeListAdd e s).ju)
    (hsc : u.sc = (writeListAdd e s).sc) :
    e ∈ (askStockIf b u).ju.writeList ∨ (askStockIf b u).ju.writing.map Prod.fst = some e := by
  unfold askStockIf
  split
  · rcases writeListAdd_waits_or e s with waits | busy
    · exact askStock_writes (by rw [hju]; exact waits)
    · rw [askStock_ju_of_current (by rw [hsc]; exact busy), hju]
      exact writeListAdd_writes e s
  · rw [hju]
    exact writeListAdd_writes e s

end Kept

/-! ### The gauge's readings (R174 to R178) -/

section Gauge
variable {s : State} {fault : Bool} {level : Nat} {temperature : Int}

theorem readingValid_iff : readingValid fault level temperature = true ↔
    fault = false ∧ level ≤ 4000 ∧ -400 ≤ temperature ∧ temperature ≤ 700 := by
  simp [readingValid, and_assoc]

theorem exec_gaugeReading (hp : s.power = .released) : exec (.gaugeReading fault level temperature) s
    = .next (if readingValid fault level temperature then considerCheck (takeReading level temperature s)
        else { s with su := { s.su with gaugeBad := satInc max16 s.su.gaugeBad } }) := if_pos hp

/-- With a usable strapping table the reading changes SU alone: the gauge is GOOD with its standard. -/
theorem takeReading_usable (hu : s.su.strapUsable = true) : ∃ clamp, takeReading level temperature s = { s with
    su := { s.su with
      lastValid := s.now, lastLevel := some level, lastTemp := some temperature,
      history := addLevel level s.su.history, gauge := .good,
      standard := some (gaugeStandard (tankVolume (strapTable s.cfg.params.strapPoints) level)
        s.cfg.params.tankAlpha temperature), strapClamp := clamp } } :=
  ⟨_, if_pos hu⟩

theorem considerCheck_notDue (hn : s.now < s.su.lastCheck + sec 1800) (hd : s.su.deliverySince = false) :
    considerCheck s = s := by
  refine if_neg fun ⟨due, _⟩ => ?_
  have notDue : checkDue s = false := by simp [checkDue, hd, hn]
  exact Bool.false_ne_true (notDue.symm.trans due)

theorem considerCheck_due (h : s.su.lastCheck + sec 1800 ≤ s.now ∨ s.su.deliverySince = true)
    (hs : settled s = true) (hr : s.su.retryAt = none) (hw : s.warned = false) : considerCheck s = stockCheck s :=
  if_pos ⟨by simpa [checkDue] using h, hs, hr, hw⟩

end Gauge

/-! ### The stock check (R184) -/

section Check
variable {s : State}

theorem stockCheck_noSlot (hf : s.ju.free = 0) : stockCheck s = { s with
    su := { s.su with retryAt := some (s.now + sec 60), checkSkipped := true } } := by
  unfold stockCheck
  dsimp only
  rw [requestRecord_refused (.inr hf)]

/-- A check that gets a record: SU keeps what it found, and asks for a stock write when the loss state changed. -/
theorem stockCheck_taken {g : Nat} {b v : Int} {o : CheckOutcome} {low : Nat} {loss : Bool} (hw : s.warned = false)
    (hf : 0 < s.ju.free) (hg : g = s.su.standard.getD 0) (hb : b = bookCl s.su.book) (hv : v = (g : Int) - b)
    (ho : o = checkOutcome s.cfg.params v) (hl : low = lowCountAfter o s.su.lowCount)
    (hloss : loss = (s.su.loss || decide (low = 3))) :
    stockCheck s = askStockIf (loss != s.su.loss) { takeRecord (.stockCheck g b v o loss) s with
      su := { (takeRecord (.stockCheck g b v o loss) s).su with
        lowCount := low, loss := loss, lastCheck := s.now, deliverySince := false, checkSkipped := false,
        overCapacity := false, lastOutcome := some (o, v) } } := by
  subst hg hb hv ho hl hloss
  unfold stockCheck
  dsimp only
  rw [requestRecord_taken hw hf]

/-- A stock write asked for leaves SU as it was but for the mark that SU asks again. -/
theorem askStockIf_frame (b : Bool) (u : State) : ∃ again sc ju, askStockIf b u
    = { u with su := { u.su with again := again }, sc := sc, ju := ju } ∧ ju.recs = u.ju.recs ∧
      ju.counter = u.ju.counter := by
  unfold askStockIf
  split
  · exact ⟨(askStock u).su.again, (askStock u).sc, (askStock u).ju, by rw [askStock_eq], by simp, by simp⟩
  · exact ⟨u.su.again, u.sc, u.ju, rfl, rfl, rfl⟩

/-- What a check leaves: SU as it set it, its record numbered, and the record's write asked for. -/
theorem stockCheck_leaves (b : Bool) (body : RecBody) (su : Su) : ∃ again sc ju,
    askStockIf b { takeRecord body s with su := su }
      = { s with su := { su with again := again }, sc := sc, ju := ju } ∧
    ju.counter = s.ju.counter + 1 ∧
    ju.recs = s.ju.recs ++ [JRec.mk (s.ju.counter + 1) s.lc.clock s.lc.sure body .opened 0 none] ∧
    (.record (s.ju.counter + 1) ∈ ju.writeList ∨ ju.writing.map Prod.fst = some (.record (s.ju.counter + 1))) := by
  have writes := askStockIf_writes (s := numberRecord body s) (e := .record (s.ju.counter + 1)) b
    (u := { takeRecord body s with su := su }) rfl rfl
  obtain ⟨again, sc, ju, asked, recs, counter⟩ := askStockIf_frame b { takeRecord body s with su := su }
  rw [asked] at writes
  refine ⟨again, sc, ju, ?_, counter.trans (takeRecord_ju_counter ..), recs.trans (takeRecord_ju_recs ..), writes⟩
  rw [asked, takeRecord_frame]

theorem lowCountAfter_eq {o : CheckOutcome} {n : Nat} (hn : n ≤ 3) :
    lowCountAfter o n = if o = .outLow then min 3 (n + 1) else 0 := by
  cases o with
  | outLow =>
    show satInc 3 n = min 3 (n + 1)
    unfold satInc
    split <;> omega
  | outHigh => rfl
  | inside => rfl

end Check

/-- Settles O60: the readings, the four times, and the check. -/
theorem gaugeAndStockTimes : Obligations.GaugeAndStockTimes := by
  refine fun s fault level temperature => ⟨fun hp => ⟨fun hf hl hlow hhigh => ?_, fun bad => ?_, fun hg => ?_,
    fun d hd => ?_, ?_⟩, fun g hg hs hw hr => ⟨considerCheck_notDue, fun due => ⟨fun full => ?_, fun free hlow => ?_⟩⟩⟩
  · have valid : readingValid fault level temperature = true := readingValid_iff.2 ⟨hf, hl, hlow, hhigh⟩
    have read : exec (.gaugeReading fault level temperature) s
        = .next (considerCheck (takeReading level temperature s)) := by
      rw [exec_gaugeReading hp, if_pos valid]
    refine ⟨read, fun hu hd hn => ?_⟩
    obtain ⟨clamp, kept⟩ := takeReading_usable (s := s) (level := level) (temperature := temperature) hu
    rw [kept, considerCheck_notDue (by exact hn) (by exact hd)] at read
    exact ⟨_, read, rfl, rfl, rfl, rfl, rfl, rfl, rfl, rfl⟩
  · have invalid : ¬readingValid fault level temperature = true := by
      rw [readingValid_iff]
      rintro ⟨rfl, _, _, _⟩
      rcases bad with bad | bad | bad | bad
      · exact Bool.noConfusion bad
      all_goals omega
    rw [exec_gaugeReading hp, if_neg invalid]
  · exact live_atDue (due := gaugeDue) hp (if_neg hg)
  · exact live_atDue (due := fun s => s.su.retryAt) hp hd
  · exact live_atDue (due := fun s => some s.su.hourEnd) hp rfl
  · rw [considerCheck_due due hs hr hw, stockCheck_noSlot full]
  · dsimp only
    rw [considerCheck_due due hs hr hw, stockCheck_taken (g := g) hw free (by rw [hg]; rfl) rfl rfl rfl
      (lowCountAfter_eq hlow).symm rfl]
    obtain ⟨again, sc, ju, left, counter, recs, writes⟩ := stockCheck_leaves (s := s) _ _ _
    rw [left]
    exact ⟨counter, recs, rfl, rfl, rfl, rfl, rfl, rfl, rfl, by rw [takeRecord_su], by rw [takeRecord_su], rfl, rfl,
      writes⟩

end Sys2Proof.Machine

/-! JU's choice of an offer (section 8.6). -/

namespace Sys2Proof.Machine

/-! ### The fragments of a record (R212) -/

/-- An encoding is cut into one chunk at least, and no more than the fuel allows. -/
theorem chunks_length (fuel : Nat) (b : List Byte) :
    (chunks (fuel + 1) b).length ≤ fuel + 1 ∧ chunks (fuel + 1) b ≠ [] := by
  induction fuel generalizing b with
  | zero =>
    unfold chunks
    split <;> simp [chunks]
  | succ fuel ih =>
    unfold chunks
    split
    · simp
    · obtain ⟨short, -⟩ := ih (b.drop 19)
      simpa using short

theorem recordFrames_length (station number time : Nat) (sure : Bool) (body : RecBody) :
    1 ≤ (recordFrames station number time sure body).length ∧
      (recordFrames station number time sure body).length ≤ 3 := by
  obtain ⟨short, some_chunk⟩ := chunks_length 2 (recordBytes number time sure body)
  unfold recordFrames
  simp only [List.length_map, List.length_zipIdx]
  exact ⟨List.length_pos_iff.2 some_chunk, short⟩

theorem offerFrames_length (serial : Nat) (frames : List (List Byte)) :
    (offerFrames serial frames).length = frames.length := by
  simp [offerFrames]

theorem offerFrames_bytes (serial : Nat) (frames : List (List Byte)) :
    (offerFrames serial frames).map TxFrame.bytes = frames := by
  unfold offerFrames
  rw [List.map_map, show TxFrame.bytes ∘ (fun p : List Byte × Nat =>
    ({ cls := 4, owner := .offer serial p.2 frames.length, bytes := p.1 } : TxFrame)) = Prod.fst from rfl,
    List.zipIdx_map_fst]

theorem offerFrames_cls {serial : Nat} {frames : List (List Byte)} {f : TxFrame}
    (hf : f ∈ offerFrames serial frames) : f.cls = 4 := by
  obtain ⟨p, -, rfl⟩ := List.mem_map.1 hf
  rfl

/-! ### The candidate (R154, R155) -/

section Choice
variable {u : State} {r : JRec} {rest : List JRec}

theorem candidate_opened {mark now : Nat} (h : r.state = .opened) : r.candidate mark now = false := by
  unfold JRec.candidate
  rw [h, Bool.and_false]

theorem candidate_closed {mark now : Nat} (hn : r.number = mark + 1) (h : r.state = .closed) :
    r.candidate mark now = true := by
  unfold JRec.candidate
  rw [h, hn]
  simp

theorem candidate_offered {mark now due : Nat} (hn : r.number = mark + 1) (h : r.state = .offered)
    (hd : r.dueAt = some due) (hle : due ≤ now) : r.candidate mark now = true := by
  unfold JRec.candidate
  rw [h, hn]
  simp [hd, hle]

theorem chooseOffer_first (hm : mayOffer u = true) (hr : u.ju.recs = r :: rest)
    (hc : r.candidate u.ju.mark u.now = true) : chooseOffer u = offerRecord r u := by
  unfold chooseOffer
  rw [if_pos hm, hr, List.find?_cons_of_pos hc]

theorem mayOffer_of (hw : u.warned = false) (hl : u.lc.link = .joined ∨ u.lc.link = .isolated)
    (ho : u.ju.offer = none) (hr : u.ju.retryAt = none) : mayOffer u = true := by
  unfold mayOffer offeringRuns
  rw [hw, ho, hr]
  rcases hl with hl | hl <;> rw [hl] <;> rfl

end Choice

/-! ### LC's answer for the whole offer (R10, R156) -/

section Offer
variable {u : State} {r : JRec}

theorem offerRecord_refused (hq : 16 ≤ u.lc.queue.length) :
    offerRecord r u = { u with ju := { u.ju with retryAt := some (u.now + sec 1) } } := by
  obtain ⟨pos, -⟩ := recordFrames_length (stationId u) r.number r.time r.sure r.body
  have refused : enqueueOffer u.ju.serial (recordFrames (stationId u) r.number r.time r.sure r.body) u
      = (false, u) := if_neg fun ⟨_, room⟩ => by omega
  unfold offerRecord
  dsimp only
  rw [refused]

/-- The fragments come to an empty queue, and the countdown of the first begins. -/
theorem offerRecord_taken (hw : u.warned = false) (hl : u.lc.link = .joined ∨ u.lc.link = .isolated)
    (hq : u.lc.queue = []) (hg : u.lc.gapMet = false) (hs : u.lc.spacing.held = false) (ht : u.lc.tx = none)
    (hc : u.lc.countdown = none) :
    let frames := recordFrames (stationId u) r.number r.time r.sure r.body
    ∃ draws countdown rollover, offerRecord r u = { u with
      draws := draws,
      lc := { u.lc with queue := offerFrames u.ju.serial frames, countdown := countdown },
      ju := { u.ju.upd r.number (fun x => { x with state := .offered }) with
        offer := some { number := r.number, serial := u.ju.serial, fragments := frames.length },
        serial := u.ju.serial + 1,
        reoffers := if 1 ≤ r.offers then (if u.ju.reoffers = max16 then 0 else u.ju.reoffers + 1)
          else u.ju.reoffers,
        rollover := rollover } } := by
  intro frames
  obtain ⟨pos, short⟩ := recordFrames_length (stationId u) r.number r.time r.sure r.body
  obtain ⟨f, rest, nonempty⟩ : ∃ f rest, offerFrames u.ju.serial frames = f :: rest := by
    refine List.exists_cons_of_ne_nil (List.length_pos_iff.1 ?_)
    rw [offerFrames_length]
    exact pos
  have started := lcKick_starts (s := { u with lc := { u.lc with queue := offerFrames u.ju.serial frames } })
    nonempty hc ht hg (.inl hs)
  have taken : enqueueOffer u.ju.serial frames u
      = (true, lcKick { u with lc := { u.lc with queue := offerFrames u.ju.serial frames } }) := by
    have room : u.lc.queue.length + frames.length ≤ 16 := by
      have few : frames.length ≤ 3 := short
      rw [hq, List.length_nil]
      omega
    refine (if_pos ⟨lcTakes_of_joined hw hl, room⟩).trans ?_
    rw [hq, List.nil_append]
  unfold offerRecord
  dsimp only
  rw [show recordFrames (stationId u) r.number r.time r.sure r.body = frames from rfl, taken, started]
  refine ⟨u.draws + 1,
    some { left := backoffCount f.cls (Config.backoffDraw u.draws), counting := false, slotFrom := u.now },
    u.ju.rollover || (decide (1 ≤ r.offers) && decide (u.ju.reoffers = max16)), ?_⟩
  simp only [Ju.upd, decide_eq_true_eq]

end Offer

/-! ### The choice at its two times (R154, R156, R158) -/

/-- The state in which JU chooses: at the due time, no retry wait running. -/
def choosing (s : State) (d : Nat) : State := { s with now := max s.now d, ju := { s.ju with retryAt := none } }

section Times
variable {s : State} {d : Nat} {r : JRec} {rest : List JRec}

theorem exec_offerRetryWait (hp : s.power = .released) (hr : s.ju.retryAt = some d) :
    exec .offerRetryWait s = .next (chooseOffer (choosing s d)) :=
  live_atDue (due := fun s => s.ju.retryAt) hp hr

theorem exec_reofferDue (hp : s.power = .released) (hr : s.ju.recs = r :: rest) (hd : r.dueAt = some d)
    (hn : s.ju.retryAt = none) : exec (.reofferDue r.number) s = .next (chooseOffer (choosing s d)) := by
  have due : reofferAt s r.number = some d := by
    unfold reofferAt Ju.find
    rw [hr, List.find?_cons_of_pos (by simp)]
    exact hd
  have same : choosing s d = s.reach d := by
    unfold choosing
    rw [← hn]
    rfl
  rw [same]
  exact live_atDue (due := fun s => reofferAt s r.number) hp due

/-- Both times offer the first record when it is a candidate. -/
theorem exec_offers {i : Instr} (hp : s.power = .released) (hr : s.ju.recs = r :: rest)
    (hn : r.number = s.ju.mark + 1)
    (hi : i = .reofferDue r.number ∧ r.state = .offered ∧ r.dueAt = some d ∧ s.ju.retryAt = none ∨
      i = .offerRetryWait ∧ s.ju.retryAt = some d ∧
        (r.state = .closed ∨ r.state = .offered ∧ ∃ due, r.dueAt = some due ∧ due ≤ max s.now d))
    (hw : s.warned = false) (hl : s.lc.link = .joined ∨ s.lc.link = .isolated) (ho : s.ju.offer = none) :
    exec i s = .next (offerRecord r (choosing s d)) := by
  have first (hc : r.candidate s.ju.mark (max s.now d) = true) :
      chooseOffer (choosing s d) = offerRecord r (choosing s d) :=
    chooseOffer_first (mayOffer_of hw hl ho rfl) hr hc
  rcases hi with ⟨rfl, offered, hd, hn'⟩ | ⟨rfl, hd, closed | ⟨offered, due, hdue, hle⟩⟩
  · rw [exec_reofferDue hp hr hd hn', first (candidate_offered hn offered hd (Nat.le_max_right _ _))]
  · rw [exec_offerRetryWait hp hd, first (candidate_closed hn closed)]
  · rw [exec_offerRetryWait hp hd, first (candidate_offered hn offered hdue hle)]

end Times

/-- Settles O56: no candidate, an offer with room, and one without. -/
theorem offersAreChosen : Obligations.OffersAreChosen := by
  refine fun s d hp => ⟨fun hr hopen => ?_, fun i r rest hr hn hi hw hl ho => ⟨fun hq hg hs ht hc => ?_,
    fun hq => ?_⟩⟩
  · rw [exec_offerRetryWait hp hr, chooseOffer_of_none (s := choosing s d) fun r hr => candidate_opened (hopen r hr)]
    rfl
  · obtain ⟨draws, countdown, rollover, offered⟩ := offerRecord_taken (r := r) (u := choosing s d) hw hl hq hg hs ht hc
    refine ⟨_, (exec_offers hp hr hn hi hw hl ho).trans (congrArg Host.Outcome.next offered), rfl, rfl,
      ⟨_, rfl, rfl, (offerFrames_length _ _).symm⟩, fun x hx number => ?_, offerFrames_bytes _ _,
      fun f hf => offerFrames_cls hf, rfl⟩
    obtain ⟨y, -, rfl⟩ := List.mem_map.1 hx
    by_cases hy : y.number = r.number
    · rw [if_pos hy]
    · rw [if_neg hy] at number
      exact absurd number hy
  · rw [exec_offers hp hr hn hi hw hl ho, offerRecord_refused (by exact hq)]
    rfl

end Sys2Proof.Machine

/-! The end of a store write: the report, the offer, and the next write (sections 8.4 and 11.3). -/

namespace Sys2Proof.Machine

/-! ### What offers do to the records (R154 to R157) -/

/-- Records of which offers have changed the state alone, and none back to OPEN. -/
def Offered (l l' : List JRec) : Prop := ∃ f : JRec → JRec, l' = l.map f ∧
  ∀ r, (f r).number = r.number ∧ (f r).body = r.body ∧ (r.state ≠ .opened → (f r).state ≠ .opened)

namespace Offered
variable {l l' l'' : List JRec}

theorem refl (l : List JRec) : Offered l l := ⟨id, (List.map_id l).symm, fun _ => ⟨rfl, rfl, id⟩⟩

theorem trans (h : Offered l l') (h' : Offered l' l'') : Offered l l'' := by
  obtain ⟨f, rfl, hf⟩ := h
  obtain ⟨g, rfl, hg⟩ := h'
  refine ⟨g ∘ f, List.map_map, fun r => ?_⟩
  obtain ⟨fn, fb, fs⟩ := hf r
  obtain ⟨gn, gb, gs⟩ := hg (f r)
  exact ⟨gn.trans fn, gb.trans fb, fun h => gs (fs h)⟩

/-- A change of the state of the records with a number. -/
theorem upd {ju : Ju} (n : Nat) (f : JRec → JRec)
    (hf : ∀ r, (f r).number = r.number ∧ (f r).body = r.body ∧ (r.state ≠ .opened → (f r).state ≠ .opened)) :
    Offered ju.recs (ju.upd n f).recs := by
  refine ⟨_, rfl, fun r => ?_⟩
  split
  · exact hf r
  · exact ⟨rfl, rfl, id⟩

theorem bodies (h : Offered l l') : l'.map JRec.body = l.map JRec.body := by
  obtain ⟨f, rfl, hf⟩ := h
  rw [List.map_map]
  exact List.map_congr_left fun r _ => (hf r).2.1

theorem not_opened {n : Nat} (h : Offered l l') (hl : ∀ y ∈ l, y.number = n → y.state ≠ .opened) :
    ∀ y ∈ l', y.number = n → y.state ≠ .opened := by
  obtain ⟨f, rfl, hf⟩ := h
  intro y hy number
  obtain ⟨r, hr, rfl⟩ := List.mem_map.1 hy
  obtain ⟨same, -, state⟩ := hf r
  exact state (hl r hr (same.symm.trans number))

end Offered

/-- A state in which only the link, the numbers drawn, and JU's offering have changed. -/
def Offering (u t : State) : Prop :=
  t = { u with
    draws := t.draws, lc := t.lc,
    ju := { u.ju with
      recs := t.ju.recs, offer := t.ju.offer, serial := t.ju.serial, retryAt := t.ju.retryAt,
      reoffers := t.ju.reoffers, rollover := t.ju.rollover } } ∧
  Offered u.ju.recs t.ju.recs

namespace Offering

theorem refl (u : State) : Offering u u := ⟨rfl, Offered.refl _⟩

theorem trans {u v t : State} (h : Offering u v) (h' : Offering v t) : Offering u t := by
  obtain ⟨e, r⟩ := h
  obtain ⟨e', r'⟩ := h'
  have outside := congrArg (fun x : State => { x with
    draws := t.draws, lc := t.lc,
    ju := { x.ju with
      recs := t.ju.recs, offer := t.ju.offer, serial := t.ju.serial, retryAt := t.ju.retryAt,
      reoffers := t.ju.reoffers, rollover := t.ju.rollover } }) e
  exact ⟨e'.trans outside, r.trans r'⟩

/-- The link's own changes. -/
theorem link {u t : State} (h : t = { u with draws := t.draws, lc := t.lc }) : Offering u t := by
  have ju : t.ju = u.ju := by rw [h]
  refine ⟨?_, by rw [ju]; exact Offered.refl _⟩
  rw [ju]
  exact h

theorem chooseOffer (u : State) : Offering u (chooseOffer u) := by
  refine ⟨chooseOffer_eq u, ?_⟩
  unfold Machine.chooseOffer
  split
  · split
    · next r _ =>
      have asked := enqueueOffer_eq u.ju.serial (recordFrames (stationId u) r.number r.time r.sure r.body) u
      unfold offerRecord
      dsimp only
      split
      · next heq =>
        rw [heq] at asked
        dsimp only at asked
        rw [asked]
        exact Offered.upd r.number (fun x => { x with state := .offered }) fun x => ⟨rfl, rfl, fun _ => by simp⟩
      · next heq =>
        rw [heq] at asked
        dsimp only at asked
        rw [asked]
        exact Offered.refl _
    · exact Offered.refl _
  · exact Offered.refl _

theorem offerDiscarded (serial : Nat) (u : State) : Offering u (offerDiscarded serial u) := by
  unfold Machine.offerDiscarded
  split
  · next o _ =>
    split
    · refine ⟨rfl, Offered.upd o.number (fun r => if r.state = .offered then { r with state := .closed, dueAt := none }
        else r) fun r => ?_⟩
      split
      · exact ⟨rfl, rfl, fun _ => by simp⟩
      · exact ⟨rfl, rfl, id⟩
    · exact refl u
  · exact refl u

theorem enqueueFrame (f : TxFrame) (u : State) : Offering u (enqueueFrame f u).2 := by
  unfold Machine.enqueueFrame
  split
  · exact refl u
  · split
    · exact link (placeFrame_eq f u)
    · split
      · exact refl u
      · split
        · exact refl u
        · next serial _ =>
          exact (((link (t := removeOffer serial u) rfl).trans (offerDiscarded serial _)).trans
            (link (placeFrame_eq f _))).trans (chooseOffer _)

end Offering

/-! ### Frames that stay in the queue (R4, R7) -/

section Frames
variable {s : State} (hg : s.lc.gapMet = false)
include hg

/-- Before the gap a countdown starts with the queue as it is. -/
theorem lcKick_of_noGap : (lcKick s).lc.queue = s.lc.queue ∧ (lcKick s).lc.gapMet = false := by
  unfold lcKick
  split
  · split
    · exact ⟨rfl, hg⟩
    · dsimp only
      rw [if_neg (by simp [hg])]
      exact ⟨rfl, hg⟩
  · exact ⟨rfl, hg⟩

theorem placeFrame_of_noGap (f : TxFrame) :
    (placeFrame f s).lc.queue = insertByClass f s.lc.queue ∧ (placeFrame f s).lc.gapMet = false := by
  unfold placeFrame
  exact lcKick_of_noGap (by exact hg)

theorem chooseOffer_of_noGap {f : TxFrame} (hf : f ∈ s.lc.queue) : f ∈ (chooseOffer s).lc.queue := by
  unfold chooseOffer
  split
  · split
    · unfold offerRecord enqueueOffer
      dsimp only
      split
      · next heq =>
        split at heq
        · rw [← (Prod.mk.inj heq).2]
          show f ∈ (lcKick _).lc.queue
          rw [(lcKick_of_noGap (by exact hg)).1]
          exact List.mem_append_left _ hf
        · cases (Prod.mk.inj heq).1
      · next heq =>
        split at heq
        · cases (Prod.mk.inj heq).1
        · rw [← (Prod.mk.inj heq).2]
          exact hf
    · exact hf
  · exact hf

end Frames

/-! ### A requester that waits is served or still waits (R201) -/

/-- The requester waits, or its write is under way. -/
def Asked (r : Requester) (s : State) : Prop := r ∈ s.sc.queue ∨ s.sc.current.map Prod.fst = some r

section Asks
variable {r x : Requester} {s : State}

theorem scKick_asked (h : Asked r s) : Asked r (scKick s) := by
  unfold scKick
  split
  · next y rest hc hq =>
    rcases h with waits | under
    · rw [hq] at waits
      rcases List.mem_cons.1 waits with rfl | waits
      · exact .inr rfl
      · exact .inl waits
    · rw [hc] at under
      exact absurd under (by simp)
  · exact h

theorem scAsk_asked (h : Asked r s) : Asked r (scAsk x s) := by
  unfold scAsk
  split
  · exact h
  · exact scKick_asked (h.imp_left fun waits => List.mem_append_left _ waits)

/-- The one that asks waits or is served. -/
theorem scAsk_asks (r : Requester) (s : State) : Asked r (scAsk r s) := by
  unfold scAsk
  split
  · next h => exact .inl (by simpa using h)
  · exact scKick_asked (.inl (List.mem_append_right _ (List.mem_singleton_self r)))

theorem askJournal_asked (h : Asked r s) : Asked r (askJournal s) := by
  unfold askJournal
  split
  · exact h
  · exact scAsk_asked h

end Asks

/-! ### The write has ended (R152, R201) -/

/-- No write is under way. -/
def freed (s : State) : State := { s with sc := { s.sc with current := none } }

/-- What the end of the write leaves in the store. -/
def endStore (good : Bool) (w : WriteContents) (s : State) : Store := if good then s.store.commit w else s.store

/-- What it leaves of SC's figures: STORE_FAULT and its counts when FAILED. -/
def endSc (good : Bool) (w : WriteContents) (sc : Sc) : Sc :=
  if good then sc else
    { sc with fault := true, failures := satInc max16 sc.failures, lastFailed := some w.area }

theorem writeOutcome_eq (w : WriteContents) (good : Bool) (s : State) :
    writeOutcome w good s = { s with store := endStore good w s, sc := endSc good w s.sc } := by
  cases good <;> rfl

theorem endSc_queue (good : Bool) (w : WriteContents) (sc : Sc) : (endSc good w sc).queue = sc.queue := by
  cases good <;> rfl

theorem endSc_current (good : Bool) (w : WriteContents) (sc : Sc) : (endSc good w sc).current = sc.current := by
  cases good <;> rfl

section Ended
variable {s : State} {r : Requester} {w : WriteContents} {good : Bool}

theorem exec_storeWriteEnd (hp : s.power ≠ .off) (hc : s.sc.current = some (r, w)) :
    exec (.storeWriteEnd good) s = .next (scKick (askAgain r (freed (reportWrite r good
      { s with store := endStore good w s, sc := endSc good w s.sc })))) := by
  refine congrArg Host.Outcome.next ((if_neg hp).trans ?_)
  unfold storeWriteEnds
  rw [hc, ← writeOutcome_eq]
  rfl

theorem scKick_of_queue_nil (hq : s.sc.queue = []) : scKick s = s := by
  unfold scKick
  rw [hq]
  cases s.sc.current <;> rfl

/-- The oldest request is performed with its contents of the moment. -/
theorem scKick_next {rest : List Requester} (hc : s.sc.current = none) (hq : s.sc.queue = r :: rest) :
    scKick s = { s with
      sc := { s.sc with queue := rest, current := some (r, writeContents r s) },
      ju := if r = .ju then juPerform s.ju else s.ju } := by
  unfold scKick
  rw [hc, hq]

end Ended

/-- The state in which a record's report begins: the write's outcome, and the record CLOSED. -/
def written (s : State) (w : WriteContents) (good : Bool) (n : Nat) : State := { s with
  store := endStore good w s, sc := endSc good w s.sc,
  ju := ({ s.ju with writing := none } : Ju).closedWritten n }

theorem written_not_opened (s : State) (w : WriteContents) (good : Bool) (n : Nat) :
    ∀ y ∈ (written s w good n).ju.recs, y.number = n → y.state ≠ .opened := by
  intro y hy number
  obtain ⟨r, -, rfl⟩ := List.mem_map.1 hy
  by_cases hr : r.number = n
  · rw [if_pos hr]
    simp
  · rw [if_neg hr] at number
    exact absurd number hr

theorem written_bodies (s : State) (w : WriteContents) (good : Bool) (n : Nat) :
    (written s w good n).ju.recs.map JRec.body = s.ju.recs.map JRec.body := by
  show (s.ju.recs.map _).map _ = _
  rw [List.map_map]
  refine List.map_congr_left fun r _ => ?_
  show JRec.body (if r.number = n then _ else _) = _
  split <;> rfl

/-- What JU's offer and the next write leave of a report's state. -/
structure WriteNext (y t : State) : Prop where
  store : t.store = y.store
  hc : t.hc = y.hc
  mt : t.mt = y.mt
  prove : t.prove = y.prove
  su : t.su = y.su
  pbu : t.pbu = y.pbu
  fault : t.sc.fault = y.sc.fault
  lastFailed : t.sc.lastFailed = y.sc.lastFailed
  slots : t.ju.slots = y.ju.slots
  recs : Offered y.ju.recs t.ju.recs
  asked : ∀ r ∈ y.sc.queue, Asked r t
  frames : y.lc.gapMet = false → ∀ f ∈ y.lc.queue, f ∈ t.lc.queue

theorem writeNext (y : State) : WriteNext y (scKick (askJournal (freed (chooseOffer y)))) := by
  have asked (r : Requester) (hr : r ∈ y.sc.queue) : Asked r (scKick (askJournal (freed (chooseOffer y)))) := by
    refine scKick_asked (askJournal_asked (.inl ?_))
    rw [chooseOffer_eq]
    exact hr
  have frames (hg : y.lc.gapMet = false) (f : TxFrame) (hf : f ∈ y.lc.queue) :
      f ∈ (scKick (askJournal (freed (chooseOffer y)))).lc.queue := by
    rw [scKick_eq, askJournal_eq]
    exact chooseOffer_of_noGap hg hf
  have recs : Offered y.ju.recs (scKick (askJournal (freed (chooseOffer y)))).ju.recs := by
    rw [scKick_eq, askJournal_eq]
    exact (Offering.chooseOffer y).2
  have offered := chooseOffer_eq y
  refine ⟨?_, ?_, ?_, ?_, ?_, ?_, ?_, ?_, ?_, recs, asked, frames⟩
  · rw [scKick_store, askJournal_store, freed, offered]
  · rw [scKick_hc, askJournal_hc, freed, offered]
  · rw [scKick_mt, askJournal_mt, freed, offered]
  · rw [scKick_prove, askJournal_prove, freed, offered]
  · rw [scKick_su, askJournal_su, freed, offered]
  · rw [scKick_pbu, askJournal_pbu, freed, offered]
  · rw [scKick_sc_fault, askJournal_sc_fault, freed, offered]
  · rw [scKick_sc_lastFailed, askJournal_sc_lastFailed, freed, offered]
  · rw [scKick_ju_slots, askJournal_ju_slots, freed, offered]

theorem recordWritten_found {s : State} {n : Nat} {x : JRec} {good : Bool} (hf : s.ju.find n = some x) :
    recordWritten n good s = chooseOffer (reportRecord x good { s with ju := s.ju.closedWritten n }) := by
  unfold recordWritten
  rw [hf]

theorem journalWritten_record {s : State} {n : Nat} {x : JRec} {good : Bool}
    (hw : s.ju.writing = some (.record n, true)) (hf : s.ju.find n = some x) : journalWritten good s
      = chooseOffer (reportRecord x good { s with ju := ({ s.ju with writing := none } : Ju).closedWritten n }) := by
  unfold journalWritten
  dsimp only
  rw [hw]
  exact recordWritten_found hf

theorem exec_storeWriteEnd_record {s : State} {w : WriteContents} {good : Bool} {n : Nat} {x : JRec}
    (hp : s.power ≠ .off) (hc : s.sc.current = some (.ju, w)) (hw : s.ju.writing = some (.record n, true))
    (hf : s.ju.find n = some x) : ∃ t, exec (.storeWriteEnd good) s = .next t ∧
      WriteNext (reportRecord x good (written s w good n)) t := by
  refine ⟨_, exec_storeWriteEnd hp hc, ?_⟩
  have reported : reportWrite .ju good { s with store := endStore good w s, sc := endSc good w s.sc }
      = chooseOffer (reportRecord x good (written s w good n)) :=
    journalWritten_record (by exact hw) (by exact hf)
  rw [reported]
  exact writeNext _

end Sys2Proof.Machine

/-! The reports of a store write's end (sections 7.6, 8.4, 9.3, 10.3 and 11.3). -/

namespace Sys2Proof.Machine

/-! ### A DISPENSE record's closed write (R121, R149, R51) -/

/-- MT's own close: the entry, its DRAW frame when the volume is above 0, and the machine let go. -/
theorem ownClose_eq (h : Hose) (m : Nat) (d : Draw) (v : State) : ∃ u : State,
    Offering { v with mt := v.mt.touch m v.lc.clock (fun e =>
      ({ e with lastUse := v.lc.clock } : Entry).merge v.lc.clock d) } u ∧
    ownClose h m d v = release h m u ∧
    (0 < d.volume → lcTakes v .draw = true → v.lc.queue.length < 16 → v.lc.gapMet = false →
      u.lc.gapMet = false ∧ drawFrame (stationId v) m d ∈ u.lc.queue) := by
  by_cases hv : 0 < d.volume
  · refine ⟨_, Offering.enqueueFrame (drawFrame (stationId v) m d) _, ?_, fun _ takes room hg => ?_⟩
    · unfold ownClose
      dsimp only
      rw [if_pos hv]
      rfl
    · rw [enqueueFrame_placed (by exact takes) (by exact room)]
      obtain ⟨placed, noGap⟩ := placeFrame_of_noGap (s := { v with mt := v.mt.touch m v.lc.clock (fun e =>
        ({ e with lastUse := v.lc.clock } : Entry).merge v.lc.clock d) }) hg (drawFrame (stationId v) m d)
      obtain ⟨front, back, -, inserted, -⟩ := insertByClass_split (drawFrame (stationId v) m d) v.lc.queue
      refine ⟨noGap, ?_⟩
      rw [placed, inserted]
      exact List.mem_append_right _ List.mem_cons_self
  · refine ⟨_, Offering.refl _, ?_, fun pos => absurd pos hv⟩
    unfold ownClose
    dsimp only
    rw [if_neg hv]

theorem reportRecord_dispense {x : JRec} {d : DispenseRec} {good : Bool} {u : State} (hb : x.body = .dispense d) :
    reportRecord x good u = dispenseClosed x d.hose good u := by
  unfold reportRecord
  rw [hb]

/-- The record's own hose lets it go and is told. -/
theorem dispenseClosed_own {x : JRec} {h : Hose} {good : Bool} {u : State}
    (hs : u.ju.slots.get h = some (.numbered x.number)) : ∃ unsaved, dispenseClosed x h good u
      = closeEnded h { u with ju := { u.ju with unsaved := unsaved, slots := u.ju.slots.set h none } } :=
  ⟨_, if_pos hs⟩

theorem closeEnded_writing {h : Hose} {v : State} (hs : (v.hc.get h).state = .writing) : closeEnded h v
    = (ownClose h ((v.hc.get h).machine.getD 0) (closeDraw (stationId v) (v.hc.get h)) v).updHc h Hc.rest :=
  if_pos hs

section Dispense
variable {s : State} {w : WriteContents} {good : Bool} {n : Nat} {x : JRec} {d : DispenseRec} {h : Hose}

theorem dispense_written (hp : s.power = .released) (hc : s.sc.current = some (.ju, w))
    (hw : s.ju.writing = some (.record n, true)) (hf : s.ju.find n = some x) (hn : x.number = n)
    (hb : x.body = .dispense d) (hd : d.hose = h) (hs : s.ju.slots.get h = some (.numbered n))
    (hst : (s.hc.get h).state = .writing) :
    let m := (s.hc.get h).machine.getD 0
    let draw := closeDraw (stationId s) (s.hc.get h)
    ∃ t : State, exec (.storeWriteEnd good) s = .next t ∧ t.store = endStore good w s ∧
      (good = false → t.sc.fault = true ∧ t.sc.lastFailed = some w.area) ∧
      t.ju.slots.get h = none ∧ (∀ y ∈ t.ju.recs, y.number = n → y.state ≠ .opened) ∧
      t.ju.recs.map JRec.body = s.ju.recs.map JRec.body ∧
      t.hc.get h = (s.hc.get h).rest ∧ t.hc.get h.other = s.hc.get h.other ∧
      t.mt = (s.mt.touch m s.lc.clock (fun e => ({ e with lastUse := s.lc.clock } : Entry).merge
        s.lc.clock draw)).upd m (fun e => if e.busy = some h then { e with busy := none } else e) ∧
      (0 < draw.volume → lcTakes s .draw = true → s.lc.queue.length < 16 → s.lc.gapMet = false →
        drawFrame (stationId s) m draw ∈ t.lc.queue) := by
  intro m draw
  subst hn hd
  obtain ⟨t, ended, next⟩ := exec_storeWriteEnd_record (good := good) (by rw [hp]; decide) hc hw hf
  obtain ⟨unsaved, own⟩ := dispenseClosed_own (x := x) (good := good) (u := written s w good x.number)
    (h := d.hose) (by exact hs)
  obtain ⟨u, ⟨offered, recs⟩, closed, frame⟩ := ownClose_eq d.hose m draw { written s w good x.number with
    ju := { (written s w good x.number).ju with
      unsaved := unsaved, slots := (written s w good x.number).ju.slots.set d.hose none } }
  have told : reportRecord x good (written s w good x.number) = (release d.hose m u).updHc d.hose Hc.rest := by
    rw [reportRecord_dispense hb, own, closeEnded_writing (by exact hst)]
    exact congrArg (fun v => State.updHc v d.hose Hc.rest) closed
  rw [told] at next
  have hose : u.hc = s.hc := by rw [offered]; rfl
  have sc : u.sc = endSc good w s.sc := by rw [offered]; rfl
  have slots : u.ju.slots = s.ju.slots.set d.hose none := by rw [offered]; rfl
  have store : u.store = endStore good w s := by rw [offered]; rfl
  have mt : u.mt = s.mt.touch m s.lc.clock (fun e => ({ e with lastUse := s.lc.clock } : Entry).merge
    s.lc.clock draw) := by rw [offered]; rfl
  have all := recs.trans next.recs
  refine ⟨t, ended, next.store.trans store, fun hg => ?_, ?_, all.not_opened (written_not_opened s w good x.number),
    all.bodies.trans (written_bodies s w good x.number), ?_, ?_, ?_, fun hv takes room hgap => ?_⟩
  · subst hg
    exact ⟨next.fault.trans (congrArg Sc.fault sc), next.lastFailed.trans (congrArg Sc.lastFailed sc)⟩
  · rw [next.slots]
    show u.ju.slots.get d.hose = none
    rw [slots, Two.get_set_self]
  · rw [next.hc]
    show (u.hc.set d.hose (u.hc.get d.hose).rest).get d.hose = _
    rw [Two.get_set_self, hose]
  · rw [next.hc]
    show (u.hc.set d.hose (u.hc.get d.hose).rest).get d.hose.other = _
    rw [Two.get_set_other, hose]
  · rw [next.mt]
    show u.mt.upd m _ = _
    rw [mt]
  · obtain ⟨noGap, placed⟩ := frame hv takes room hgap
    exact next.frames noGap _ placed

end Dispense

end Sys2Proof.Machine

/-! What follows the end of each kind of store write (sections 7.6, 8.4, 9.3, 10.3 and 11.3). -/

namespace Sys2Proof.Machine

/-! ### Requests made while a write is under way (R201) -/

section Current
variable {s : State} {r : Requester} {c : Requester × WriteContents}

theorem scAsk_waits (hc : s.sc.current = some c) : r ∈ (scAsk r s).sc.queue := by
  cases hq : s.sc.queue.contains r with
  | true =>
    rw [scAsk_waiting s hq]
    simpa using hq
  | false =>
    rw [scAsk_busy s hc hq]
    exact List.mem_append_right _ (List.mem_singleton_self r)

theorem scKick_of_current (hc : s.sc.current = some c) : scKick s = s := by
  unfold scKick
  rw [hc]

theorem askStock_of_other (hu : s.sc.under ≠ some .su) : askStock s = scAsk .su s := if_neg hu

theorem askBanks_of_other (hu : s.sc.under ≠ some .pbu) : askBanks s = scAsk .pbu s := if_neg hu

end Current

section Report
variable {s u : State} {w : WriteContents} {good : Bool} {n : Nat} {x : JRec}

theorem written_current (hc : s.sc.current = some (.ju, w)) :
    (written s w good n).sc.current = some (.ju, w) := (endSc_current good w s.sc).trans hc

/-! ### A PROVE record's write (R135) -/

theorem proveRecordEnd_failed (hs : u.prove.step = .record n) :
    proveRecordEnd n false u = proveNone (factorNotStored (u.prove.hose.getD .a) u) := by
  unfold proveRecordEnd
  rw [if_pos hs, if_pos rfl]

theorem proveRecordEnd_accepted (hs : u.prove.step = .record n) (ho : u.prove.outcome = some .accepted) :
    proveRecordEnd n true u = askFactor u := by
  unfold proveRecordEnd
  rw [if_pos hs, if_neg (by simp), if_pos ho]

theorem proveRecordEnd_over (hs : u.prove.step = .record n) (ho : u.prove.outcome ≠ some .accepted) :
    proveRecordEnd n true u = proveNone u := by
  unfold proveRecordEnd
  rw [if_pos hs, if_neg (by simp), if_neg ho]

theorem proveNone_over (u : State) : (proveNone u).prove.phase = .none ∧ (proveNone u).su.proveActive = false ∧
    (u.su.proveActive = true → (proveNone u).su.proveEnd = some u.now) := by
  unfold proveNone
  cases ha : u.su.proveActive <;> simp [Prove.initial, ha]

theorem reportRecord_prove {p : ProveRec} (hb : x.body = .prove p) :
    reportRecord x good u = proveRecordEnd x.number good u := by
  unfold reportRecord
  rw [hb]

theorem prove_written {p : ProveRec} (hp : s.power = .released) (hc : s.sc.current = some (.ju, w))
    (hw : s.ju.writing = some (.record n, true)) (hf : s.ju.find n = some x) (hn : x.number = n)
    (hb : x.body = .prove p) (hs : s.prove.step = .record n) :
    ∃ t : State, exec (.storeWriteEnd good) s = .next t ∧ t.store = endStore good w s ∧
      (good = true → s.prove.outcome = some .accepted →
        t.prove.step = .factor ∧ t.prove.phase = s.prove.phase ∧
        t.prove.factorWrite = some { hose := s.prove.hose.getD .a, band := s.prove.band.getD 1,
                                     newF := s.prove.newF } ∧
        (.proving ∈ t.sc.queue ∨ t.sc.current.map Prod.fst = some .proving)) ∧
      (good = false ∨ s.prove.outcome ≠ some .accepted →
        t.prove.phase = .none ∧ t.su.proveActive = false ∧
        (s.su.proveActive = true → t.su.proveEnd = some s.now)) ∧
      (good = false → (t.hc.get (s.prove.hose.getD .a)).factorNotStored = true) := by
  subst hn
  obtain ⟨t, ended, next⟩ := exec_storeWriteEnd_record (good := good) (by rw [hp]; decide) hc hw hf
  rw [reportRecord_prove hb] at next
  have busy := written_current (good := good) (n := x.number) hc
  cases good with
  | false =>
    rw [proveRecordEnd_failed (by exact hs)] at next
    obtain ⟨phase, active, endAt⟩ := proveNone_over
      (factorNotStored (s.prove.hose.getD .a) (written s w false x.number))
    refine ⟨t, ended, next.store, fun hg => Bool.noConfusion hg, fun _ => ?_, fun _ => ?_⟩
    · rw [next.prove, next.su]
      exact ⟨phase, active, endAt⟩
    · rw [next.hc]
      exact congrArg Hc.factorNotStored (Two.get_set_self _ _ _)
  | true =>
    by_cases ho : s.prove.outcome = some .accepted
    · rw [proveRecordEnd_accepted (by exact hs) (by exact ho)] at next
      refine ⟨t, ended, next.store.trans (scAsk_store ..), fun _ _ => ?_, fun h => ?_, fun hg => Bool.noConfusion hg⟩
      · have prove := next.prove.trans (scAsk_prove ..)
        rw [prove]
        exact ⟨rfl, rfl, rfl, next.asked _ (scAsk_waits (by exact busy))⟩
      · exact (h.elim (fun hg => Bool.noConfusion hg) fun other => (other ho).elim)
    · rw [proveRecordEnd_over (by exact hs) (by exact ho)] at next
      obtain ⟨phase, active, endAt⟩ := proveNone_over (written s w true x.number)
      refine ⟨t, ended, next.store, fun _ accepted => absurd accepted ho, fun _ => ?_, fun hg => Bool.noConfusion hg⟩
      rw [next.prove, next.su]
      exact ⟨phase, active, endAt⟩

/-! ### A record's write of any other kind (R151, R169, R203) -/

theorem reportRecord_settles (hb : (∃ a b c d e, x.body = .delivery a b c d e) ∨ ∃ a b, x.body = .adjust a b) :
    reportRecord x good u = settleSequence x.number u := by
  unfold reportRecord
  rcases hb with ⟨a, b, c, d, e, hb⟩ | ⟨a, b, hb⟩ <;> rw [hb]

theorem reportRecord_priceBook {a b : Nat} (hb : x.body = .priceBook a b) :
    reportRecord x good u = switchEnd good u := by
  unfold reportRecord
  rw [hb]

/-- A REFUSAL, STOCKCHECK or LOST record is reported to nobody. -/
theorem reportRecord_nobody (hd : ∀ v, x.body ≠ .dispense v) (hp : ∀ v, x.body ≠ .prove v)
    (hs : ¬((∃ a b c d e, x.body = .delivery a b c d e) ∨ ∃ a b, x.body = .adjust a b))
    (hb : ∀ a b, x.body ≠ .priceBook a b) : reportRecord x good u = u := by
  unfold reportRecord
  split
  · next v h => exact absurd h (hd v)
  · next a b c d e h => exact absurd (.inl ⟨a, b, c, d, e, h⟩) hs
  · next a b h => exact absurd (.inr ⟨a, b, h⟩) hs
  · next v h => exact absurd h (hp v)
  · next a b h => exact absurd h (hb a b)
  all_goals rfl

theorem settleSequence_asks (hc : u.sc.current = some (.ju, w)) : settleSequence n u
    = scAsk .su { u with su := { u.su with settledSeq := max u.su.settledSeq n } } :=
  askStock_of_other (by rw [Sc.under]; simp [hc])

theorem switchEnd_asks (hc : u.sc.current = some (.ju, w)) : switchEnd true u = scAsk .pbu { u with
    pbu := { u.pbu with
      banks := ⟨u.pbu.banks.one.switched, u.pbu.banks.two.switched⟩, switchState := .idle } } :=
  (if_pos rfl).trans (askBanks_of_other (by rw [Sc.under]; simp [hc]))

theorem switchEnd_blocks : switchEnd false u = { u with pbu := { u.pbu with switchState := .blocked } } :=
  if_neg Bool.false_ne_true

/-- What the report of such a record leaves as it was. -/
structure OtherReport (u y : State) : Prop where
  store : y.store = u.store
  fault : y.sc.fault = u.sc.fault
  lastFailed : y.sc.lastFailed = u.sc.lastFailed
  recs : y.ju.recs = u.ju.recs
  hc : y.hc = u.hc
  mt : y.mt = u.mt
  prove : y.prove = u.prove

theorem scAsk_otherReport (r : Requester) (u : State) (su : Su) (pbu : Pbu) :
    OtherReport u (scAsk r { u with su := su, pbu := pbu }) := by
  rw [scAsk_eq]
  exact ⟨rfl, rfl, rfl, rfl, rfl, rfl, rfl⟩

theorem other_written (hp : s.power ≠ .off) (hc : s.sc.current = some (.ju, w))
    (hw : s.ju.writing = some (.record n, true)) (hf : s.ju.find n = some x) (hn : x.number = n)
    (hd : ∀ v, x.body ≠ .dispense v) (hv : ∀ v, x.body ≠ .prove v) :
    ∃ t : State, exec (.storeWriteEnd good) s = .next t ∧ t.store = endStore good w s ∧
      (good = false → t.sc.fault = true ∧ t.sc.lastFailed = some w.area) ∧
      (∀ y ∈ t.ju.recs, y.number = n → y.state ≠ .opened) ∧
      t.ju.recs.map JRec.body = s.ju.recs.map JRec.body ∧
      t.hc = s.hc ∧ t.mt = s.mt ∧ t.prove = s.prove ∧
      ((∀ a b c d e, x.body ≠ .delivery a b c d e) → (∀ a b, x.body ≠ .adjust a b) → t.su = s.su) ∧
      ((∃ a b c d e, x.body = .delivery a b c d e) ∨ (∃ a b, x.body = .adjust a b) →
        t.su = { s.su with settledSeq := max s.su.settledSeq n } ∧
        (.su ∈ t.sc.queue ∨ t.sc.current.map Prod.fst = some .su)) ∧
      ((∀ a b, x.body ≠ .priceBook a b) → t.pbu = s.pbu) ∧
      (∀ a b, x.body = .priceBook a b →
        (good = true → t.pbu = { s.pbu with
            banks := ⟨s.pbu.banks.one.switched, s.pbu.banks.two.switched⟩, switchState := .idle } ∧
          (.pbu ∈ t.sc.queue ∨ t.sc.current.map Prod.fst = some .pbu)) ∧
        (good = false → t.pbu = { s.pbu with switchState := .blocked })) := by
  subst hn
  obtain ⟨t, ended, next⟩ := exec_storeWriteEnd_record (good := good) hp hc hw hf
  have busy := written_current (good := good) (n := x.number) hc
  generalize hy : reportRecord x good (written s w good x.number) = y at next
  have common (o : OtherReport (written s w good x.number) y) :
      t.store = endStore good w s ∧
      (good = false → t.sc.fault = true ∧ t.sc.lastFailed = some w.area) ∧
      (∀ z ∈ t.ju.recs, z.number = x.number → z.state ≠ .opened) ∧
      t.ju.recs.map JRec.body = s.ju.recs.map JRec.body ∧ t.hc = s.hc ∧ t.mt = s.mt ∧ t.prove = s.prove := by
    have recs := next.recs
    rw [o.recs] at recs
    refine ⟨next.store.trans o.store, fun hg => ?_, recs.not_opened (written_not_opened s w good x.number),
      recs.bodies.trans (written_bodies s w good x.number), next.hc.trans o.hc, next.mt.trans o.mt,
      next.prove.trans o.prove⟩
    subst hg
    exact ⟨next.fault.trans o.fault, next.lastFailed.trans o.lastFailed⟩
  by_cases settles : (∃ a b c d e, x.body = .delivery a b c d e) ∨ ∃ a b, x.body = .adjust a b
  · rw [reportRecord_settles settles, settleSequence_asks busy] at hy
    obtain ⟨store, failed, state, bodies, hose, mt, prove⟩ := common (hy ▸ scAsk_otherReport _ _ _ _)
    refine ⟨t, ended, store, failed, state, bodies, hose, mt, prove, fun delivery adjust => ?_, fun _ => ⟨?_, ?_⟩,
      fun _ => ?_, fun a b price => ?_⟩
    · rcases settles with ⟨a, b, c, d, e, hb⟩ | ⟨a, b, hb⟩
      · exact absurd hb (delivery a b c d e)
      · exact absurd hb (adjust a b)
    · rw [next.su, ← hy, scAsk_su]
      rfl
    · exact next.asked _ (hy ▸ scAsk_waits (by exact busy))
    · rw [next.pbu, ← hy, scAsk_pbu]
      rfl
    · rcases settles with ⟨_, _, _, _, _, hb⟩ | ⟨_, _, hb⟩ <;> rw [price] at hb <;> cases hb
  · by_cases prices : ∃ a b, x.body = .priceBook a b
    · obtain ⟨a, b, hb⟩ := prices
      rw [reportRecord_priceBook hb] at hy
      have report : OtherReport (written s w good x.number) y ∧ y.su = s.su := by
        cases good with
        | false => exact hy ▸ ⟨⟨rfl, rfl, rfl, rfl, rfl, rfl, rfl⟩, rfl⟩
        | true =>
          rw [switchEnd_asks busy] at hy
          exact hy ▸ ⟨scAsk_otherReport _ _ _ _, scAsk_su ..⟩
      obtain ⟨store, failed, state, bodies, hose, mt, prove⟩ := common report.1
      refine ⟨t, ended, store, failed, state, bodies, hose, mt, prove, fun _ _ => next.su.trans report.2,
        fun h => absurd h settles, fun none => absurd hb (none a b), fun _ _ _ => ⟨fun hg => ?_, fun hg => ?_⟩⟩
      · subst hg
        rw [switchEnd_asks busy] at hy
        refine ⟨?_, next.asked _ (hy ▸ scAsk_waits (by exact busy))⟩
        rw [next.pbu, ← hy, scAsk_pbu]
        rfl
      · subst hg
        rw [next.pbu, ← hy, switchEnd_blocks]
        rfl
    · rw [reportRecord_nobody hd hv settles fun a b hb => prices ⟨a, b, hb⟩] at hy
      obtain ⟨store, failed, state, bodies, hose, mt, prove⟩ := common (hy ▸ ⟨rfl, rfl, rfl, rfl, rfl, rfl, rfl⟩)
      refine ⟨t, ended, store, failed, state, bodies, hose, mt, prove, fun _ _ => ?_, fun h => absurd h settles,
        fun _ => ?_, fun a b hb => absurd ⟨a, b, hb⟩ prices⟩
      · rw [next.su, ← hy]
        rfl
      · rw [next.pbu, ← hy]
        rfl

end Report

end Sys2Proof.Machine

/-! The end of every other store write, and the request that is performed next (section 11.3). -/

namespace Sys2Proof.Machine

section Ends
variable {s : State} {r : Requester} {w : WriteContents} {good : Bool}

/-! ### A write with nothing more asked for (R201, R202) -/

/-- The requesters that are told nothing and ask for nothing more. -/
theorem quiet_report (hr : r = .lc ∨ r = .hc .a ∨ r = .hc .b ∨ (r = .su ∧ s.su.again = false) ∨
      (r = .pbu ∧ s.pbu.again = false)) :
    reportWrite r good s = s ∧ askAgain r (freed s) = freed s := by
  rcases hr with rfl | rfl | rfl | ⟨rfl, ha⟩ | ⟨rfl, ha⟩
  · exact ⟨rfl, rfl⟩
  · exact ⟨rfl, rfl⟩
  · exact ⟨rfl, rfl⟩
  · exact ⟨rfl, if_neg (by simp [freed, ha])⟩
  · exact ⟨rfl, if_neg (by simp [freed, ha])⟩

theorem quiet_ends (hp : s.power ≠ .off) (hc : s.sc.current = some (r, w)) (hq : s.sc.queue = [])
    (hr : r = .lc ∨ r = .hc .a ∨ r = .hc .b ∨ (r = .su ∧ s.su.again = false) ∨ (r = .pbu ∧ s.pbu.again = false)) :
    exec (.storeWriteEnd good) s = .next { s with
      store := endStore good w s, sc := { endSc good w s.sc with current := none } } := by
  obtain ⟨told, asks⟩ := quiet_report (s := { s with store := endStore good w s, sc := endSc good w s.sc })
    (good := good) hr
  rw [exec_storeWriteEnd hp hc, told, asks, scKick_of_queue_nil ((endSc_queue good w s.sc).trans hq)]
  rfl

/-- The oldest request that waits is performed. -/
theorem quiet_next {next : Requester} {rest : List Requester} (hp : s.power ≠ .off)
    (hc : s.sc.current = some (r, w)) (hr : r = .lc ∨ r = .hc .a ∨ r = .hc .b) (hq : s.sc.queue = next :: rest) :
    ∃ t : State, exec (.storeWriteEnd good) s = .next t ∧ t.store = endStore good w s ∧ t.sc.queue = rest ∧
      t.sc.current = some (next, writeContents next s) := by
  obtain ⟨told, asks⟩ := quiet_report (s := { s with store := endStore good w s, sc := endSc good w s.sc })
    (good := good) (r := r) (by tauto)
  have contents : writeContents next (freed { s with store := endStore good w s, sc := endSc good w s.sc })
      = writeContents next s := by
    cases next <;> rfl
  have kicked := scKick_next (s := freed { s with store := endStore good w s, sc := endSc good w s.sc }) rfl
    ((endSc_queue good w s.sc).trans hq)
  rw [contents] at kicked
  have ends := exec_storeWriteEnd (good := good) hp hc
  rw [told, asks, kicked] at ends
  exact ⟨_, ends, rfl, rfl, rfl⟩

/-! ### The write of an open record or of the mark (R152) -/

theorem journalWritten_silent {e : WriteEntry × Bool} (hw : s.ju.writing = some e) (he : e.1 = .mark ∨ e.2 = false) :
    journalWritten good s = { s with ju := { s.ju with writing := none } } := by
  obtain ⟨entry, closed⟩ := e
  unfold journalWritten
  dsimp only
  rw [hw]
  cases entry with
  | mark => rfl
  | record n =>
    obtain rfl : closed = false := he.resolve_left (by simp)
    rfl

/-- The state in which JU asks for its next write. -/
def silent (s : State) (w : WriteContents) (good : Bool) : State := { s with
  store := endStore good w s, sc := { endSc good w s.sc with current := none },
  ju := { s.ju with writing := none } }

theorem silent_ends {e : WriteEntry × Bool} (hp : s.power ≠ .off) (hc : s.sc.current = some (.ju, w))
    (hw : s.ju.writing = some e) (he : e.1 = .mark ∨ e.2 = false) :
    exec (.storeWriteEnd good) s = .next (scKick (askJournal (silent s w good))) := by
  rw [exec_storeWriteEnd hp hc]
  show Host.Outcome.next (scKick (askJournal (freed (journalWritten good _)))) = _
  rw [journalWritten_silent (by exact hw) he]
  rfl

theorem silent_nothing {e : WriteEntry × Bool} (hp : s.power ≠ .off) (hc : s.sc.current = some (.ju, w))
    (hw : s.ju.writing = some e) (he : e.1 = .mark ∨ e.2 = false) (hq : s.sc.queue = [])
    (hl : s.ju.writeList = []) : exec (.storeWriteEnd good) s = .next (silent s w good) := by
  have asks : askJournal (silent s w good) = silent s w good := if_pos (.inl (by simp [silent, hl]))
  rw [silent_ends hp hc hw he, asks, scKick_of_queue_nil ((endSc_queue good w s.sc).trans hq)]

/-- The entry at the front of JU's list is the one that is written. -/
theorem juPerform_cons {ju : Ju} {next : WriteEntry} {rest : List WriteEntry} (hl : ju.writeList = next :: rest) :
    (juPerform ju).writing.map Prod.fst = some next ∧ (juPerform ju).writeList = rest := by
  unfold juPerform
  rw [hl]
  cases next <;> exact ⟨rfl, rfl⟩

theorem askJournal_idle (hc : s.sc.current = none) (hq : s.sc.queue = []) (hl : s.ju.writeList ≠ []) :
    askJournal s = { s with
      sc := { s.sc with queue := [], current := some (.ju, writeContents .ju s) }, ju := juPerform s.ju } := by
  unfold askJournal
  rw [if_neg (by simp [hl, Sc.under, hc]), scAsk_idle s hc hq]
  rfl

theorem silent_next {e : WriteEntry × Bool} {next : WriteEntry} {rest : List WriteEntry} (hp : s.power ≠ .off)
    (hc : s.sc.current = some (.ju, w)) (hw : s.ju.writing = some e) (he : e.1 = .mark ∨ e.2 = false)
    (hq : s.sc.queue = []) (hl : s.ju.writeList = next :: rest) :
    ∃ t : State, exec (.storeWriteEnd good) s = .next t ∧ t.store = endStore good w s ∧
      t.sc.current.map Prod.fst = some .ju ∧ t.sc.queue = [] ∧ t.sc.fault = (endSc good w s.sc).fault ∧
      t.ju.writing.map Prod.fst = some next ∧ t.ju.writeList = rest ∧ t.ju.recs = s.ju.recs := by
  have asks := askJournal_idle (s := silent s w good) rfl ((endSc_queue good w s.sc).trans hq)
    (by simp [silent, hl])
  obtain ⟨writing, left⟩ := juPerform_cons (ju := (silent s w good).ju) hl
  have ends := silent_ends (good := good) hp hc hw he
  rw [asks, scKick_of_current rfl] at ends
  exact ⟨_, ends, rfl, rfl, rfl, rfl, writing, left, juPerform_recs _⟩

/-! ### SU and PBU ask again (R164, R180) -/

theorem again_su (hp : s.power ≠ .off) (hq : s.sc.queue = []) (hc : s.sc.current = some (.su, w))
    (ha : s.su.again = true) : ∃ t : State, exec (.storeWriteEnd good) s = .next t ∧ t.store = endStore good w s ∧
      t.su = { s.su with again := false } ∧ t.sc.current = some (.su, .stock (stockArea s)) ∧ t.sc.queue = [] ∧
      t.ju = s.ju := by
  have asked := scAsk_idle (r := .su) { s with
    store := endStore good w s, sc := { endSc good w s.sc with current := none }, su := { s.su with again := false } }
    rfl ((endSc_queue good w s.sc).trans hq)
  have ends := (exec_storeWriteEnd (good := good) hp hc).trans (congrArg Host.Outcome.next
    ((congrArg scKick ((if_pos ha).trans asked)).trans (scKick_of_current rfl)))
  exact ⟨_, ends, rfl, rfl, rfl, rfl, rfl⟩

theorem again_pbu (hp : s.power ≠ .off) (hq : s.sc.queue = []) (hc : s.sc.current = some (.pbu, w))
    (ha : s.pbu.again = true) : ∃ t : State, exec (.storeWriteEnd good) s = .next t ∧ t.store = endStore good w s ∧
      t.pbu = { s.pbu with again := false } ∧ t.sc.current = some (.pbu, .banks s.pbu.banks) ∧ t.sc.queue = [] ∧
      t.ju = s.ju := by
  have asked := scAsk_idle (r := .pbu) { s with
    store := endStore good w s, sc := { endSc good w s.sc with current := none },
    pbu := { s.pbu with again := false } }
    rfl ((endSc_queue good w s.sc).trans hq)
  have ends := (exec_storeWriteEnd (good := good) hp hc).trans (congrArg Host.Outcome.next
    ((congrArg scKick ((if_pos ha).trans asked)).trans (scKick_of_current rfl)))
  exact ⟨_, ends, rfl, rfl, rfl, rfl, rfl⟩

/-! ### The factor write (R135) -/

/-- With no factor write left the end of the write ends a prove in RECORDING. -/
theorem proveNone_recording (u : State) (hf : u.prove.factorWrite = none) :
    (if u.prove.phase = .recording then proveNone u else u) = { u with
      prove := if u.prove.phase = .recording then Prove.initial else u.prove,
      su := if u.prove.phase = .recording ∧ u.su.proveActive = true then
        { u.su with proveActive := false, proveEnd := some u.now } else u.su } := by
  by_cases hr : u.prove.phase = .recording
  · simp only [hr, if_true, true_and, proveNone, hf]
    rfl
  · simp only [hr, if_false, false_and]

theorem proveFactorEnd_some {f : FactorWrite} {u : State} (hf : u.prove.factorWrite = some f) :
    proveFactorEnd good u =
      (let u1 := { u with prove := { u.prove with factorWrite := none } }
       let u2 := if good then u1.updMu f.hose (fun mu => { mu with table := mu.table.set f.band f.newF })
         else factorNotStored f.hose u1
       if u2.prove.phase = .recording then proveNone u2 else u2) := by
  unfold proveFactorEnd
  rw [hf]

theorem factor_ends {f : FactorWrite} (hp : s.power ≠ .off) (hc : s.sc.current = some (.proving, w))
    (hq : s.sc.queue = []) (hf : s.prove.factorWrite = some f) :
    let prove := if s.prove.phase = .recording then Prove.initial else { s.prove with factorWrite := none }
    let su := if s.prove.phase = .recording ∧ s.su.proveActive = true then
      { s.su with proveActive := false, proveEnd := some s.now } else s.su
    exec (.storeWriteEnd true) s = .next { s with
      store := s.store.commit w, sc := { s.sc with current := none }, prove := prove, su := su,
      mu := s.mu.set f.hose { s.mu.get f.hose with table := (s.mu.get f.hose).table.set f.band f.newF } } ∧
    exec (.storeWriteEnd false) s = .next { s with
      sc := { endSc false w s.sc with current := none }, prove := prove, su := su,
      hc := s.hc.set f.hose { s.hc.get f.hose with factorNotStored := true } } := by
  intro prove su
  refine ⟨?_, ?_⟩
  · have ended := (proveFactorEnd_some (good := true)
      (u := { s with store := endStore true w s, sc := endSc true w s.sc }) hf).trans (proveNone_recording _ rfl)
    rw [exec_storeWriteEnd hp hc, reportWrite, ended, askAgain, scKick_of_queue_nil (by exact hq)]
    rfl
  · have ended := (proveFactorEnd_some (good := false)
      (u := { s with store := endStore false w s, sc := endSc false w s.sc }) hf).trans (proveNone_recording _ rfl)
    rw [exec_storeWriteEnd hp hc, reportWrite, ended, askAgain, scKick_of_queue_nil (by exact hq)]
    rfl

end Ends

/-- Settles O57: the quiet ends, the three requests, and each kind of write's end. -/
theorem storeWritesAreAskedForAndEnd : Obligations.StoreWritesAreAskedForAndEnd := by
  intro s r w good
  refine ⟨fun hp hc hq hr => ⟨quiet_ends hp hc hq hr, quiet_ends hp hc hq hr⟩, scAsk_waiting s,
    fun c hc hr => scAsk_busy s hc hr, fun hc hq => ?_,
    fun h n x d hp hc hw hf hn hb hd hs hst => dispense_written hp hc hw hf hn hb hd hs hst,
    fun n x p hp hc hw hf hn hb hs => prove_written hp hc hw hf hn hb hs,
    fun n x hp hc hw hf hn hd hv => other_written hp hc hw hf hn hd hv,
    fun e hp hc hw he hq => ⟨fun hl => ?_, fun next rest hl => ?_⟩,
    fun hp hq => ⟨fun hc ha => again_su hp hq hc ha, fun hc ha => again_pbu hp hq hc ha⟩,
    fun next rest hp hc hr hq => quiet_next hp hc hr hq, fun f hp hc hq hf => factor_ends hp hc hq hf⟩
  · rw [scAsk_idle s hc hq, ← hq]
  · rw [silent_nothing hp hc hw he hq hl]
    cases good <;> rfl
  · obtain ⟨t, ended, store, current, queue, fault, rest⟩ := silent_next (good := good) hp hc hw he hq hl
    refine ⟨t, ended, store, current, queue, ?_, rest⟩
    rw [fault]
    cases good <;> rfl

end Sys2Proof.Machine
